-- ==== Sys2Proof/Word.lean ====
section
/-! DEFINITION. The word types of the BME280 SPI access block: a byte, as it goes over the wire (00_scope R12), and a
host command word (30_encoding R94). -/

namespace Sys2Proof

/-- A byte; bit 0 is the least significant (00_scope R12). -/
abbrev Byte := BitVec 8

/-- A host command word (30_encoding R94). -/
abbrev Cmd := BitVec 32

end Sys2Proof
end

