-- ==== Sys2Proof/Config.lean ====
section
/-! DEFINITION. What is fixed for an instance of the block: the Device Configuration record (10_state R20), and the named
parameters of 00_scope R7. A parameter whose value the spec leaves OPEN is a constant with no body (log 4); the values the
slave supplies when nothing else does are `Config.freeBit` and `Config.freeByte` (log 5). -/

namespace Sys2Proof

/-- A pin identifier or the sentinel of an unset pin (00_scope R7 `Pin`, `PIN_UNSET`).
DESIGN CHOICE, safe (log 2): real pins are named by numbers; nothing computes with them. -/
inductive Pin where
  | unset
  | gpio (id : Nat)
  deriving DecidableEq, Repr

/-- One operating-mode setting (10_state R20). DESIGN CHOICE, safe (log 3): the spec gives no type. -/
abbrev Setting := Nat

/-- The six operating-mode settings of the Device Configuration (10_state R20). -/
structure Settings where
  osrsT  : Setting
  osrsH  : Setting
  osrsP  : Setting
  pmode  : Setting
  tSb    : Setting
  filter : Setting
  deriving DecidableEq, Repr

/-- The Device Configuration `CFG` (10_state R20). -/
structure DeviceConfig where
  csPin    : Pin
  sckPin   : Pin
  mosiPin  : Pin
  misoPin  : Pin
  settings : Settings
  deriving DecidableEq, Repr

/-- The two transports (00_scope R3). -/
inductive Transport where
  | hw
  | sw
  deriving DecidableEq, Repr

/-- Bit order of the hardware peripheral, an argument of `HwBegin` (00_scope R14). -/
inductive BitOrder where
  | msbFirst
  | lsbFirst
  deriving DecidableEq, Repr

/-- Clock mode of the hardware peripheral, an argument of `HwBegin` (00_scope R14). -/
inductive SpiMode where
  | mode0
  | mode1
  | mode2
  | mode3
  deriving DecidableEq, Repr

namespace Config

/-- `HW_CLOCK_HZ` (00_scope R7). -/
def hwClockHz : Nat := 500000

/-- `HW_BIT_ORDER` (00_scope R7). -/
def hwBitOrder : BitOrder := .msbFirst

/-- `HW_MODE` (00_scope R7). -/
def hwMode : SpiMode := .mode0

/-- `TRIM_LEN` (00_scope R7). -/
def trimLen : Nat := 32

/-- `RAW_SLOTS` (00_scope R7); the staging buffer has as many bytes (10_state R32). -/
def rawSlots : Nat := 8

/-- `MAX_READ_LEN` (00_scope R7). -/
def maxReadLen : Nat := 255

/-! The eleven register addresses (20_memory R62): OPEN (log 4). -/

opaque idAddr : Byte
opaque ctrlHumAddr : Byte
opaque ctrlMeasAddr : Byte
opaque configAddr : Byte
opaque tempDigAddr : Byte
opaque pressDigAddr : Byte
opaque humDigAddr1 : Byte
opaque humDigAddr2 : Byte
opaque pressAddr : Byte
opaque tempAddr : Byte
opaque humAddr : Byte

/-- `CHIP_ID_FULL` (43_identity R200): OPEN (log 4). -/
opaque chipIdFull : Byte

/-- How far `CHIP_ID_REDUCED` lies above `CHIP_ID_FULL`, less one: OPEN (log 4). -/
opaque chipIdGap : Fin 255

/-- `CHIP_ID_REDUCED` (43_identity R200): any byte but `CHIP_ID_FULL`, as R200 requires. -/
def chipIdReduced : Byte := chipIdFull + BitVec.ofNat 8 (chipIdGap.val + 1)

/-- The three control byte functions, of the settings alone (43_identity R207, 92 D11): OPEN (log 4). -/
opaque ctrlHumByte : Settings → Byte
opaque ctrlMeasByte : Settings → Byte
opaque configByte : Settings → Byte

/-- How many bits a raw slot has beyond eight: OPEN (log 4). -/
opaque rawExtra : Nat

/-- `RAW_W`, at least 8 (00_scope R7). -/
def rawW : Nat := 8 + rawExtra

/-- `T_EDGE` (00_scope R7, 70_reset_and_hazards R290): a named parameter that no rule reads (log 15). -/
opaque tEdge : Nat

/-- The n-th oracle answer where it is a MISO sample and no sample was supplied (00_scope R10, 40_transport R124):
a free value (log 5). -/
opaque freeBit : Nat → Bool

/-- The n-th oracle answer where it is a byte of the peripheral and none was supplied (00_scope R10, 40_transport R126):
a free value (log 5). -/
opaque freeByte : Nat → Byte

/-- The constructor arguments of the reset instance. DESIGN CHOICE, unsafe (log 1): the software-mode constructor with four
distinct pins and the example settings of 95_test_vectors section 0. -/
def resetConfig : DeviceConfig where
  csPin    := .gpio 0
  sckPin   := .gpio 1
  mosiPin  := .gpio 2
  misoPin  := .gpio 3
  settings := { osrsT := 1, osrsH := 1, osrsP := 1, pmode := 3, tSb := 5, filter := 0 }

end Config

end Sys2Proof
end

