-- ==== Sys2Proof/Syntax.lean ====
section
/-! DEFINITION. The instructions: one constructor per row of spec/opcode_table.json, the eight host commands (30_encoding
R95) and the two wire header bytes (30_encoding R91); and the two forms of code those rows have. -/

namespace Sys2Proof

/-- An instruction: a row of spec/opcode_table.json with its operands (30_encoding R95, R96). -/
inductive Instr where
  /-- XFER8: one byte on the active transport (40_transport R121, R125). -/
  | xfer8 (tx : Byte)
  /-- RREAD: a read frame of `n` bytes (41_frames R150). -/
  | rread (addr : Byte) (n : Nat)
  /-- RWRITE: a write frame (41_frames R160). -/
  | rwrite (addr : Byte) (d : Byte)
  /-- PINCFG: pin and peripheral set-up (40_transport R130, R131). -/
  | pincfg
  /-- IDCHK: the identity check (43_identity R201). -/
  | idchk
  /-- RDTRIM: the calibration bootstrap (42_calibration R181). -/
  | rdtrim
  /-- BEGIN: the initialisation (43_identity R206). -/
  | begin
  /-- RDDATA: the raw sample reader (44_sample R230). -/
  | rddata
  /-- FRAME_RD_HDR: the header byte of a read frame, `1aaaaaaa` (30_encoding R91). -/
  | frameRdHdr (a : BitVec 7)
  /-- FRAME_WR_HDR: the header byte of a write frame, `0aaaaaaa` (30_encoding R91). -/
  | frameWrHdr (a : BitVec 7)
  deriving DecidableEq, Repr

/-- The two forms of code of spec/opcode_table.json: a host command word (30_encoding R94) and a wire header byte
(30_encoding R91). They never share a channel; log 18. -/
inductive Code where
  | command (w : Cmd)
  | header (b : Byte)
  deriving DecidableEq, Repr

end Sys2Proof
end

