-- ==== Sys2Proof/WellFormed.lean ====
section
/-! DEFINITION. What a well-formed instruction and a well-formed Device Configuration are. -/

namespace Sys2Proof

/-- Every operand fits the field the encoding has for it (30_encoding R96, R100): a read length is at most `MAX_READ_LEN`
(41_frames R150); the other operands have their width as their type. -/
def Instr.wellFormed : Instr → Bool
  | .xfer8 _      => true
  | .rread _ n    => decide (n ≤ Config.maxReadLen)
  | .rwrite _ _   => true
  | .pincfg       => true
  | .idchk        => true
  | .rdtrim       => true
  | .begin        => true
  | .rddata       => true
  | .frameRdHdr _ => true
  | .frameWrHdr _ => true

/-- The hardware half of 10_state R23. -/
def DeviceConfig.wellFormedHw (c : DeviceConfig) : Bool :=
  decide (c.sckPin = .unset ∧ c.mosiPin = .unset ∧ c.misoPin = .unset ∧ c.csPin ≠ .unset)

/-- The software half of 10_state R23: no pin unset, the four pairwise distinct. -/
def DeviceConfig.wellFormedSw (c : DeviceConfig) : Bool :=
  decide (c.csPin ≠ .unset ∧ c.sckPin ≠ .unset ∧ c.mosiPin ≠ .unset ∧ c.misoPin ≠ .unset ∧
    c.csPin ≠ c.sckPin ∧ c.csPin ≠ c.mosiPin ∧ c.csPin ≠ c.misoPin ∧
    c.sckPin ≠ c.mosiPin ∧ c.sckPin ≠ c.misoPin ∧ c.mosiPin ≠ c.misoPin)

/-- A well-formed Device Configuration (10_state R23). -/
def DeviceConfig.wellFormed (c : DeviceConfig) : Bool :=
  c.wellFormedHw || c.wellFormedSw

end Sys2Proof
end

