-- ==== Sys2Proof/Decode.lean ====
section
/-! DEFINITION. Decoding of host command words (30_encoding R94 to R98) and wire header bytes (R91), total, every reserved
word rejected by name (R97); the encoder, from the same fields; and the match and mask table of R98. -/

namespace Sys2Proof

/-! The fields of a command word (30_encoding R94). -/

/-- `OP`, bits 3:0. -/
def fieldOp (w : Cmd) : BitVec 4 := w.extractLsb' 0 4
/-- `RSV0`, bits 7:4. -/
def fieldRsv0 (w : Cmd) : BitVec 4 := w.extractLsb' 4 4
/-- `A`, bits 15:8. -/
def fieldA (w : Cmd) : Byte := w.extractLsb' 8 8
/-- `B`, bits 23:16. -/
def fieldB (w : Cmd) : Byte := w.extractLsb' 16 8
/-- `RSV1`, bits 31:24. -/
def fieldRsv1 (w : Cmd) : Byte := w.extractLsb' 24 8

/-- Why a word spells no operation (30_encoding R97); each is refused with `ReservedEncoding`. -/
inductive DecodeError where
  /-- `RSV0` or `RSV1` is not zero. -/
  | reservedField
  /-- `OP` is in 0x8..0xF. -/
  | reservedOp
  /-- A field the operation does not use is not zero. -/
  | unusedField
  deriving DecidableEq, Repr

/-- An operation that uses neither `A` nor `B` (30_encoding R95). -/
def decodeNoOperand (w : Cmd) (i : Instr) : Except DecodeError Instr :=
  if fieldA w = 0 ∧ fieldB w = 0 then .ok i else .error .unusedField

/-- The operation an `OP` value selects (30_encoding R95), the reserved fields being zero. -/
def decodeOp (w : Cmd) : Except DecodeError Instr :=
  match (fieldOp w).toNat with
  | 0 => if fieldA w = 0 then .ok (.xfer8 (fieldB w)) else .error .unusedField
  | 1 => .ok (.rread (fieldA w) (fieldB w).toNat)
  | 2 => .ok (.rwrite (fieldA w) (fieldB w))
  | 3 => decodeNoOperand w .pincfg
  | 4 => decodeNoOperand w .idchk
  | 5 => decodeNoOperand w .rdtrim
  | 6 => decodeNoOperand w .begin
  | 7 => decodeNoOperand w .rddata
  | _ => .error .reservedOp

/-- Decoding of a host command word (30_encoding R97): the word of one row of R95, or rejected by name. -/
def decodeCommand (w : Cmd) : Except DecodeError Instr :=
  if fieldRsv0 w = 0 ∧ fieldRsv1 w = 0 then decodeOp w else .error .reservedField

/-- Decoding of a wire header byte (30_encoding R91): every value is a header (R93). -/
def decodeHeader (b : Byte) : Instr :=
  if b.getLsbD 7 then .frameRdHdr (b.setWidth 7) else .frameWrHdr (b.setWidth 7)

/-- The decoder: total on both forms of code. -/
def decode : Code → Except DecodeError Instr
  | .command w => decodeCommand w
  | .header b  => .ok (decodeHeader b)

/-- A command word laid out by its fields, the reserved ones zero (30_encoding R94). -/
def commandOf (op : BitVec 4) (a b : Byte) : Cmd :=
  0#8 ++ b ++ a ++ 0#4 ++ op

/-- The encoder (30_encoding R91, R95, R96). A read length is put in its eight-bit field; `Instr.wellFormed` says it fits. -/
def encode : Instr → Code
  | .xfer8 tx     => .command (commandOf 0 0 tx)
  | .rread a n    => .command (commandOf 1 a (BitVec.ofNat 8 n))
  | .rwrite a d   => .command (commandOf 2 a d)
  | .pincfg       => .command (commandOf 3 0 0)
  | .idchk        => .command (commandOf 4 0 0)
  | .rdtrim       => .command (commandOf 5 0 0)
  | .begin        => .command (commandOf 6 0 0)
  | .rddata       => .command (commandOf 7 0 0)
  | .frameRdHdr a => .header (1#1 ++ a)
  | .frameWrHdr a => .header (0#1 ++ a)

/-- The command word of an instruction, where it is a host command. -/
def commandWord (i : Instr) : Option Cmd :=
  match encode i with
  | .command w => some w
  | .header _  => none

/-- A row of the table of 30_encoding R98. -/
structure OpRow where
  mnemonic : String
  matchWord : Cmd
  maskWord : Cmd
  deriving DecidableEq, Repr

/-- A word is a row's iff it agrees with `match` under `mask` (30_encoding R98). -/
def OpRow.accepts (r : OpRow) (w : Cmd) : Bool :=
  w &&& r.maskWord == r.matchWord

def rowXfer8  : OpRow := ⟨"XFER8",  0x00000000, 0xFF00FFFF⟩
def rowRread  : OpRow := ⟨"RREAD",  0x00000001, 0xFF0000FF⟩
def rowRwrite : OpRow := ⟨"RWRITE", 0x00000002, 0xFF0000FF⟩
def rowPincfg : OpRow := ⟨"PINCFG", 0x00000003, 0xFFFFFFFF⟩
def rowIdchk  : OpRow := ⟨"IDCHK",  0x00000004, 0xFFFFFFFF⟩
def rowRdtrim : OpRow := ⟨"RDTRIM", 0x00000005, 0xFFFFFFFF⟩
def rowBegin  : OpRow := ⟨"BEGIN",  0x00000006, 0xFFFFFFFF⟩
def rowRddata : OpRow := ⟨"RDDATA", 0x00000007, 0xFFFFFFFF⟩

/-- The match and mask table of 30_encoding R98. -/
def opRows : List OpRow :=
  [rowXfer8, rowRread, rowRwrite, rowPincfg, rowIdchk, rowRdtrim, rowBegin, rowRddata]

/-- The row of R98 an instruction belongs to; the wire headers have none. -/
def rowOf : Instr → Option OpRow
  | .xfer8 _      => some rowXfer8
  | .rread _ _    => some rowRread
  | .rwrite _ _   => some rowRwrite
  | .pincfg       => some rowPincfg
  | .idchk        => some rowIdchk
  | .rdtrim       => some rowRdtrim
  | .begin        => some rowBegin
  | .rddata       => some rowRddata
  | .frameRdHdr _ => none
  | .frameWrHdr _ => none

/-- The code a row of spec/opcode_table.json stands for: a row of at most eight bits is a wire header byte, a wider one a
host command word (log 18). -/
def tableCode (nbits w : Nat) : Code :=
  if nbits ≤ 8 then .header (BitVec.ofNat 8 w) else .command (BitVec.ofNat 32 w)

/-- The instruction the decoder reads from the bits `w` of a table row. -/
def decodeTableWord (nbits w : Nat) : Option Instr :=
  (decode (tableCode nbits w)).toOption

end Sys2Proof
end

