-- ==== Sys2Proof/Machine/State.lean ====
section
/-! DEFINITION. The state of the block (10_state), the events it emits (00_scope R14), the reasons a step stops, and the
state after construction, which is the block's only reset (70_reset_and_hazards R280). -/

namespace Sys2Proof.Machine

/-- Direction of a pin (10_state R25). -/
inductive PinDir where
  | unconf
  | output
  | input
  deriving DecidableEq, Repr

/-- The four configured pins, by the name the configuration gives each (10_state R20). -/
inductive Line where
  | cs
  | sck
  | mosi
  | miso
  deriving DecidableEq, Repr

/-- The three pins that have an output latch (10_state R25). -/
inductive OutLine where
  | cs
  | sck
  | mosi
  deriving DecidableEq, Repr

/-- A bus event (00_scope R14). -/
inductive Event where
  | drive (p : Pin) (v : Bool)
  | dir (p : Pin) (d : PinDir)
  | sample (p : Pin) (b : Bool)
  | hwStart
  | hwBegin (f : Nat) (o : BitOrder) (m : SpiMode)
  | hwXfer (tx rx : Byte)
  | hwEnd
  deriving DecidableEq, Repr

/-- A raw sample slot, `RAW_W` bits (10_state R32). -/
abbrev Slot := BitVec Config.rawW

/-- What an operation returns (10_state R34), or what a read of a buffer hands out (20_memory R63). -/
inductive Result where
  /-- RWRITE and PINCFG return nothing. -/
  | nothing
  | byte (b : Byte)
  | bytes (l : List Byte)
  | bool (b : Bool)
  | slot (v : Slot)
  deriving DecidableEq, Repr

/-- Driver phase (10_state R33). -/
inductive Phase where
  | uninit
  | ready
  | unusable
  deriving DecidableEq, Repr

/-- The fault reasons of 60_exceptions R242. -/
inductive FaultReason where
  | pinsUnconfigured
  | notReady
  | undefRead
  deriving DecidableEq, Repr

/-- What `FAULT` records: the reason and the command word that raised it (60_exceptions R242); a read by the collaborator
or the host has no command word (log 12). -/
structure FaultRecord where
  reason : FaultReason
  word   : Option Cmd
  deriving DecidableEq, Repr

/-- The refusal reasons of 60_exceptions R244. -/
inductive RefusalReason where
  | malformedConfig
  | reservedEncoding
  deriving DecidableEq, Repr

/-- A buffer: (offset, value) pairs, offsets strictly rising; an unlisted offset is UNDEF (10_state R31, R32, R39). -/
abbrev Memory (α : Type) := List (Nat × α)

/-- The canonical form of a buffer: offsets strictly rising (an unlisted offset has no value, so no entry can equal it). -/
abbrev Memory.wf {α : Type} (m : Memory α) : Prop :=
  m.Pairwise (fun x y => x.1 < y.1)

/-- Output latches and directions of the pins (10_state R25). `none` is the spec's UNDEF (log 9, log 13). -/
structure Pins where
  latCs   : Option Bool
  latSck  : Option Bool
  latMosi : Option Bool
  dirCs   : PinDir
  dirSck  : PinDir
  dirMosi : PinDir
  dirMiso : PinDir
  deriving DecidableEq, Repr

/-- Latches UNDEF, directions UNCONF (10_state R39). -/
def Pins.constructed : Pins where
  latCs   := none
  latSck  := none
  latMosi := none
  dirCs   := .unconf
  dirSck  := .unconf
  dirMosi := .unconf
  dirMiso := .unconf

/-- The working registers of an operation (10_state R36). `none` is "no value" (log 10). -/
structure WorkRegs where
  tx    : Option Byte
  rxacc : Option Byte
  bit   : Option Nat
  hdr   : Option Byte
  k     : Option Nat
  off   : Option Nat
  deriving DecidableEq, Repr

/-- "They hold no value between operations" (10_state R36). -/
def WorkRegs.noValue : WorkRegs where
  tx    := none
  rxacc := none
  bit   := none
  hdr   := none
  k     := none
  off   := none

/-- A read of a buffer or register from outside: of `TRIM` by the collaborator, `n` bytes from offset `off` (20_memory R63);
of a slot of `RAW`, of `CHIP_ID` or of `ID_OK` by the host (10_state R38). Log 12. -/
inductive ReadReq where
  | trim (off n : Nat)
  | raw (j : Nat)
  | chipId
  | idOk
  deriving DecidableEq, Repr

/-- What the outside places for the block to take next: a command word or a wire header byte (log 11), or a read. Log 6. -/
inductive HostInput where
  | code (c : Code)
  | read (r : ReadReq)
  deriving DecidableEq, Repr

/-- Why the machine stops with a fault. -/
inductive Fault where
  /-- Raised by `step`: the block took a fault before and "takes no further operation" (60_exceptions R243). Safe. -/
  | quiescent (r : FaultRecord)
  deriving DecidableEq, Repr

/-- Why the machine has no meaning for what it was given. -/
inductive Refusal where
  /-- Raised by `exec`'s arm of an instruction that has no meaning yet; no arm does. Safe. -/
  | notModelled (mnemonic : String)
  /-- Raised by `step`: the instance refused its configuration or a word before, and "no operation of the instance has a
  step afterwards" (60_exceptions R244). Safe. -/
  | noMeaning (r : RefusalReason)
  /-- Raised by `hostRead`: the offsets lie outside `TRIM`, which has offsets 0 to 31, or no byte is asked for (20_memory
  R60, R63). Safe. -/
  | noSuchTrim (off n : Nat)
  /-- Raised by `hostRead`: `RAW` has indices 0 to 7 (20_memory R60). Safe. -/
  | noSuchSlot (j : Nat)
  deriving DecidableEq, Repr

/-- The state of one instance of the block (10_state), with the model's inputs and its record of results. -/
structure State where
  /-- `CFG` (R20), never written after construction. -/
  cfg        : DeviceConfig
  /-- `LAT` and `DIRN` (R25). -/
  pins       : Pins
  /-- `HW_STARTED` (R29). -/
  hwStarted  : Bool
  /-- `HW_IN_TXN` (R29). -/
  hwInTxn    : Bool
  /-- `CHIP_ID` (R30); `none` is UNDEF. -/
  chipId     : Option Byte
  /-- `ID_OK` (R30). -/
  idOk       : Bool
  /-- `TRIM` (R31). -/
  trim       : Memory Byte
  /-- `STAGE` (R32). -/
  stage      : Memory Byte
  /-- `RAW` (R32). -/
  raw        : Memory Slot
  /-- `PHASE` (R33). -/
  phase      : Phase
  /-- `FAULT` (R35). -/
  fault      : Option FaultRecord
  /-- `REFUSED` (R35). -/
  refused    : Option RefusalReason
  /-- `EV` (R35), oldest first. -/
  ev         : List Event
  /-- The working registers (R36). -/
  work       : WorkRegs
  /-- The model's own: what each operation returned, oldest first (00_scope R11; log 7). -/
  results    : List Result
  /-- The model's own: what the outside has placed and the block has not taken yet, next first (log 6). -/
  pending    : List HostInput
  /-- The model's own: MISO samples supplied from outside, next first (log 5). -/
  slaveBits  : List Bool
  /-- The model's own: peripheral responses supplied from outside, next first (log 5). -/
  slaveBytes : List Byte
  /-- The model's own: how many oracle answers were taken, the index of the next free value (log 5). -/
  answers    : Nat
  deriving DecidableEq, Repr

/-- Construction with a configuration (10_state R21, R39): no event, and a malformed configuration is refused (R23). -/
def State.construct (cfg : DeviceConfig) : State where
  cfg        := cfg
  pins       := Pins.constructed
  hwStarted  := false
  hwInTxn    := false
  chipId     := none
  idOk       := false
  trim       := []
  stage      := []
  raw        := []
  phase      := .uninit
  fault      := none
  refused    := if cfg.wellFormed then none else some .malformedConfig
  ev         := []
  work       := WorkRegs.noValue
  results    := []
  pending    := []
  slaveBits  := []
  slaveBytes := []
  answers    := 0

/-- The machine right after reset: construction (70_reset_and_hazards R280) with the reset instance's arguments (log 1). -/
def State.reset : State := State.construct Config.resetConfig

end Sys2Proof.Machine
end

