-- ==== Sys2Proof/Machine/Ops.lean ====
section
/-! DEFINITION. The named operations over the state: the two constructors and the transport (10_state R21, R22), buffers
(00_scope R13), the oracle (R10), the bus primitives (R14), the working registers (10_state R36), pin readiness and wire
level (R26, R27), taking a fault, refusing, and completing an operation (60_exceptions R242 to R244). -/

namespace Sys2Proof

/-- The hardware-mode constructor's configuration (10_state R21). -/
def DeviceConfig.hardware (cs : Pin) (st : Settings) : DeviceConfig where
  csPin    := cs
  sckPin   := .unset
  mosiPin  := .unset
  misoPin  := .unset
  settings := st

/-- The software-mode constructor's configuration (10_state R21): chip-select, clock, data-out, data-in. -/
def DeviceConfig.software (cs sck mosi miso : Pin) (st : Settings) : DeviceConfig where
  csPin    := cs
  sckPin   := sck
  mosiPin  := mosi
  misoPin  := miso
  settings := st

/-- `TRANSPORT` (10_state R22, 40_transport R120). -/
def DeviceConfig.transport (c : DeviceConfig) : Transport :=
  if c.mosiPin = .unset then .hw else .sw

namespace Machine

/-- The pin a configuration gives a line. -/
def pinOf (c : DeviceConfig) : Line → Pin
  | .cs   => c.csPin
  | .sck  => c.sckPin
  | .mosi => c.mosiPin
  | .miso => c.misoPin

/-- The line an output latch belongs to. -/
def OutLine.line : OutLine → Line
  | .cs   => .cs
  | .sck  => .sck
  | .mosi => .mosi

/-! ## Buffers -/

/-- `MemRead(BUF, off, 1)` (00_scope R13); `none` where the offset is UNDEF. -/
def Memory.read {α : Type} : Memory α → Nat → Option α
  | [], _ => none
  | (k, v) :: m, a => if a = k then some v else Memory.read m a

/-- Write of one element, keeping the offsets rising. -/
def Memory.write {α : Type} : Memory α → Nat → α → Memory α
  | [], a, v => [(a, v)]
  | (k, u) :: m, a, v =>
    if a < k then (a, v) :: (k, u) :: m
    else if a = k then (k, v) :: m
    else (k, u) :: Memory.write m a v

/-- `MemWrite(BUF, off, n, bytes)` (00_scope R13), an element at a time (20_memory R70). -/
def Memory.writeList {α : Type} (m : Memory α) (off : Nat) : List α → Memory α
  | [] => m
  | v :: vs => Memory.writeList (Memory.write m off v) (off + 1) vs

/-- `MemRead(BUF, off, n)` (00_scope R13); `none` where one of the offsets is UNDEF. -/
def Memory.readList {α : Type} (m : Memory α) (off : Nat) : Nat → Option (List α)
  | 0 => some []
  | n + 1 =>
    match Memory.read m off, Memory.readList m (off + 1) n with
    | some v, some vs => some (v :: vs)
    | _, _ => none

/-! ## Pins and readiness -/

/-- `LAT[p]` (10_state R25). -/
def State.lat (s : State) : OutLine → Option Bool
  | .cs   => s.pins.latCs
  | .sck  => s.pins.latSck
  | .mosi => s.pins.latMosi

/-- `DIRN[p]` (10_state R25). -/
def State.dirn (s : State) : Line → PinDir
  | .cs   => s.pins.dirCs
  | .sck  => s.pins.dirSck
  | .mosi => s.pins.dirMosi
  | .miso => s.pins.dirMiso

/-- The level the slave sees on an output pin (10_state R26); `none` where the block defines none. -/
def State.wireLevel (s : State) (l : OutLine) : Option Bool :=
  if s.dirn l.line = .output then s.lat l else none

/-- `TRANSPORT` of the instance (10_state R22). -/
def State.transport (s : State) : Transport := s.cfg.transport

/-- `PINS_READY` (10_state R27). -/
def State.pinsReady (s : State) : Bool :=
  match s.transport with
  | .sw => decide (s.dirn .cs = .output ∧ s.dirn .sck = .output ∧ s.dirn .mosi = .output ∧ s.dirn .miso = .input)
  | .hw => decide (s.dirn .cs = .output ∧ s.hwStarted = true)

/-! ## The oracle (00_scope R10; log 5) -/

/-- The `i`-th bit the slave presents from here on: the samples supplied, then free values. -/
def State.answerBit (s : State) (i : Nat) : Bool :=
  (s.slaveBits[i]?).getD (Config.freeBit (s.answers + i))

/-- The `i`-th byte the peripheral receives from here on: the bytes supplied, then free values. -/
def State.answerHwByte (s : State) (i : Nat) : Byte :=
  (s.slaveBytes[i]?).getD (Config.freeByte (s.answers + i))

/-! ## Bus primitives (00_scope R14) -/

/-- Append one event to `EV`. -/
def State.emit (e : Event) (s : State) : State :=
  { s with ev := s.ev ++ [e] }

/-- Write of an output latch. -/
def Pins.setLat (p : Pins) (v : Bool) : OutLine → Pins
  | .cs   => { p with latCs := some v }
  | .sck  => { p with latSck := some v }
  | .mosi => { p with latMosi := some v }

/-- Write of a direction. -/
def Pins.setDir (p : Pins) (d : PinDir) : Line → Pins
  | .cs   => { p with dirCs := d }
  | .sck  => { p with dirSck := d }
  | .mosi => { p with dirMosi := d }
  | .miso => { p with dirMiso := d }

/-- `Drive(p, v)`. -/
def State.drive (l : OutLine) (v : Bool) (s : State) : State :=
  State.emit (.drive (pinOf s.cfg l.line) v) { s with pins := s.pins.setLat v l }

/-- `Dir(p, d)`. -/
def State.setDirection (l : Line) (d : PinDir) (s : State) : State :=
  State.emit (.dir (pinOf s.cfg l) d) { s with pins := s.pins.setDir d l }

/-- The bit `Sample(MISO_PIN)` answers with. -/
def State.sampled (s : State) : Bool := s.answerBit 0

/-- `Sample(MISO_PIN)`: the bit is `State.sampled`; this is the state after. -/
def State.sample (s : State) : State :=
  State.emit (.sample (pinOf s.cfg .miso) s.sampled)
    { s with slaveBits := s.slaveBits.drop 1, answers := s.answers + 1 }

/-- `HwStart()`; started again it has no further effect (40_transport R131). -/
def State.startHw (s : State) : State :=
  State.emit .hwStart { s with hwStarted := true }

/-- `HwBegin(f, o, m)`; it always completes (40_transport R128; log 15). -/
def State.beginHw (f : Nat) (o : BitOrder) (m : SpiMode) (s : State) : State :=
  State.emit (.hwBegin f o m) { s with hwInTxn := true }

/-- The byte `HwXfer(tx)` answers with. -/
def State.received (s : State) : Byte := s.answerHwByte 0

/-- `HwXfer(tx)`: the byte is `State.received`; this is the state after. -/
def State.xferHw (tx : Byte) (s : State) : State :=
  State.emit (.hwXfer tx s.received)
    { s with slaveBytes := s.slaveBytes.drop 1, answers := s.answers + 1 }

/-- `HwEnd()`. -/
def State.endHw (s : State) : State :=
  State.emit .hwEnd { s with hwInTxn := false }

/-! ## Working registers (10_state R36) -/

def State.setTx (v : Byte) (s : State) : State := { s with work := { s.work with tx := some v } }
def State.setRxacc (v : Byte) (s : State) : State := { s with work := { s.work with rxacc := some v } }
def State.setBit (v : Nat) (s : State) : State := { s with work := { s.work with bit := some v } }
def State.setHdr (v : Byte) (s : State) : State := { s with work := { s.work with hdr := some v } }
def State.setK (v : Nat) (s : State) : State := { s with work := { s.work with k := some v } }
def State.setOff (v : Nat) (s : State) : State := { s with work := { s.work with off := some v } }

/-- `TX`; an operation sets it before it reads it (R36), so the default stands for nothing. -/
def State.tx (s : State) : Byte := s.work.tx.getD 0
/-- `RXACC`; set before it is read (R36). -/
def State.rxacc (s : State) : Byte := s.work.rxacc.getD 0
/-- `HDR`; set before it is read (R36). -/
def State.hdr (s : State) : Byte := s.work.hdr.getD 0
/-- `OFF`; set before it is read (R36). -/
def State.off (s : State) : Nat := s.work.off.getD 0

/-! ## Ends of an operation -/

/-- `raise Fault(reason)` (00_scope R13, 60_exceptions R243): the state before the operation, plus `FAULT`. -/
def State.raise (r : FaultReason) (w : Option Cmd) (s : State) : State :=
  { s with fault := some { reason := r, word := w } }

/-- `refuse(reason)` (00_scope R13, 60_exceptions R244). -/
def State.refuse (r : RefusalReason) (s : State) : State :=
  { s with refused := some r }

/-- `return v` (00_scope R13): the result is handed out, and the working registers hold nothing any more (10_state R36). -/
def State.complete (r : Result) (s : State) : State :=
  { s with results := s.results ++ [r], work := WorkRegs.noValue }

/-- The header steps return nothing to the host (log 11): only the working registers are given up. -/
def State.settle (s : State) : State :=
  { s with work := WorkRegs.noValue }

/-- A bus operation: `PinsUnconfigured` before the first event if the pins are not ready (10_state R27), else its body. -/
def State.withPins (i : Instr) (body : State → State) (s : State) : State :=
  if s.pinsReady then body s else s.raise .pinsUnconfigured (commandWord i)

end Machine

end Sys2Proof
end

