-- ==== Sys2Proof/Machine/Operands.lean ====
section
/-! DEFINITION. Operand assembly: the header bytes (30_encoding R91), the dummy byte (R92), the bit accumulation (40_transport
R121), the widening of a raw slot (44_sample R231), and the region tables (20_memory R62, 42_calibration R180). -/

namespace Sys2Proof.Machine

/-- `HDR_R = addr | 0x80` (30_encoding R91). -/
def readHeader (addr : Byte) : Byte := addr ||| 0x80#8

/-- `HDR_W = addr & 0x7F` (30_encoding R91). -/
def writeHeader (addr : Byte) : Byte := addr &&& 0x7F#8

/-- The byte sent while a response byte is received (30_encoding R92). -/
def dummyByte : Byte := 0x00#8

/-- `((RXACC << 1) | b)[7:0]` (40_transport R121). -/
def shiftIn (acc : Byte) (b : Bool) : Byte := (acc <<< 1) ||| (BitVec.ofBool b).setWidth 8

/-- `zext_RAW_W(b)` (44_sample R231). -/
def widen (b : Byte) : Slot := b.setWidth Config.rawW

/-- The four trim regions, in the order they are read, as (address, length) (42_calibration R180). -/
def trimRegions : List (Byte × Nat) :=
  [(Config.tempDigAddr, 6), (Config.pressDigAddr, 18), (Config.humDigAddr1, 1), (Config.humDigAddr2, 7)]

/-- The three data regions, in the order they are read, as (address, length) (44_sample R230). -/
def dataRegions : List (Byte × Nat) :=
  [(Config.pressAddr, 3), (Config.tempAddr, 3), (Config.humAddr, 2)]

end Sys2Proof.Machine
end

