-- ==== Sys2Proof/Machine/Flags.lean ====
section
/-! DEFINITION. The block has no flags register and no condition codes (10_state R34). What stands in their place: the
boolean success indicators an operation computes, and the codes the spec gives errors, faults and refusals. -/

namespace Sys2Proof.Machine

/-- `(id == CHIP_ID_FULL) or (id == CHIP_ID_REDUCED)`, on all eight bits (43_identity R201). -/
def idMatches (id : Byte) : Bool :=
  id == Config.chipIdFull || id == Config.chipIdReduced

/-- `OFF == 32` (42_calibration R181). -/
def trimOk (off : Nat) : Bool := off == Config.trimLen

/-- `data_ok`, always true (44_sample R236). -/
def dataOk : Bool := true

/-- The error taxonomy of 60_exceptions R241; a status is reported as a boolean only and never stored. -/
inductive Status where
  | none
  | identityMismatch
  | calibrationLengthMismatch
  deriving DecidableEq, Repr

/-- The status behind a returned boolean of IDCHK (60_exceptions R241). -/
def idStatus (ok : Bool) : Status := if ok then .none else .identityMismatch

/-- The status behind a returned boolean of RDTRIM (60_exceptions R241). -/
def trimStatus (ok : Bool) : Status := if ok then .none else .calibrationLengthMismatch

/-- The status behind a returned boolean of BEGIN, from its two checks in their order (60_exceptions R241). -/
def beginStatus (idOk trOk : Bool) : Status := if idOk then trimStatus trOk else .identityMismatch

/-- The boolean an operation with that status returns (60_exceptions R241). -/
def Status.toBool : Status → Bool
  | .none => true
  | .identityMismatch => false
  | .calibrationLengthMismatch => false

/-- Status codes (60_exceptions R241). -/
def Status.code : Status → Nat
  | .none => 0
  | .identityMismatch => 1
  | .calibrationLengthMismatch => 2

/-- Fault codes (60_exceptions R242). -/
def FaultReason.code : FaultReason → Nat
  | .pinsUnconfigured => 0x11
  | .notReady => 0x12
  | .undefRead => 0x13

/-- Refusal codes (60_exceptions R244). -/
def RefusalReason.code : RefusalReason → Nat
  | .malformedConfig => 0x21
  | .reservedEncoding => 0x22

end Sys2Proof.Machine
end

