-- ==== Sys2Proof/Machine/Transport.lean ====
section
/-! DEFINITION. The two transports (40_transport): the byte exchange XFERB, XFER8, and PINCFG. -/

namespace Sys2Proof.Machine

/-- One bit of a software byte: the body of the loop of 40_transport R121, at bit `i`. -/
def State.xferBit (i : Nat) (s : State) : State :=
  let low  := (s.setBit i).drive .sck false
  let data := low.drive .mosi (low.tx.getLsbD i)
  let high := data.drive .sck true
  let read := high.sample
  read.setRxacc (shiftIn read.rxacc high.sampled)

/-- `for BIT in n-1 downto 0` (40_transport R121). -/
def State.xferBits : Nat → State → State
  | 0, s => s
  | n + 1, s => State.xferBits n (s.xferBit n)

/-- XFERB on the bit-banger: the loop of 40_transport R121 without its readiness check. -/
def State.xferSw (t : Byte) (s : State) : State :=
  State.xferBits 8 ((s.setTx t).setRxacc 0x00#8)

/-- `XFERB(t)`, the transport's byte exchange (41_frames, 40_transport R120): the state after. -/
def State.xferB (t : Byte) (s : State) : State :=
  match s.transport with
  | .sw => s.xferSw t
  | .hw => s.xferHw t

/-- `XFERB(t)`: the byte it returns. -/
def State.xferByte (t : Byte) (s : State) : Byte :=
  match s.transport with
  | .sw => (s.xferSw t).rxacc
  | .hw => s.received

/-- XFER8 (40_transport R121, R125). -/
def execXfer8 (tx : Byte) (s : State) : Host.Outcome State Fault Refusal :=
  .next (s.withPins (.xfer8 tx) fun s => (s.xferB tx).complete (.byte (s.xferByte tx)))

/-- The pin and peripheral set-up of 40_transport R130 and R131. -/
def State.pinSetup (s : State) : State :=
  let idle := (s.drive .cs true).setDirection .cs .output
  match s.transport with
  | .sw => ((idle.setDirection .sck .output).setDirection .mosi .output).setDirection .miso .input
  | .hw => idle.startHw

/-- PINCFG (40_transport R130, R131). -/
def execPincfg (s : State) : Host.Outcome State Fault Refusal :=
  .next (s.pinSetup.complete .nothing)

end Sys2Proof.Machine
end

