-- ==== Sys2Proof/Machine/Frames.lean ====
section
/-! DEFINITION. Register frames (41_frames): the header step, the read frame and the write frame, and the instructions that
are one of them. -/

namespace Sys2Proof.Machine

/-- The start of a frame: in HW the bracket opens, then CS is asserted (41_frames R150, R160, 40_transport R127). -/
def State.openFrame (s : State) : State :=
  match s.transport with
  | .sw => s.drive .cs false
  | .hw => (s.beginHw Config.hwClockHz Config.hwBitOrder Config.hwMode).drive .cs false

/-- The end of a frame: CS is de-asserted, then in HW the bracket closes (41_frames R150, R160, 40_transport R127). -/
def State.closeFrame (s : State) : State :=
  match s.transport with
  | .sw => s.drive .cs true
  | .hw => (s.drive .cs true).endHw

/-- The header step: `HDR <- h`, then `_ <- XFERB(HDR)`, the response discarded (41_frames R150, R160). -/
def State.sendHeader (h : Byte) (s : State) : State :=
  (s.setHdr h).xferB (s.setHdr h).hdr

/-- `for K in k .. k+n-1: out[K] <- XFERB(0x00)` (41_frames R150): the bytes and the state after. -/
def State.readPayload (k : Nat) : Nat → State → List Byte × State
  | 0, s => ([], s)
  | n + 1, s =>
    let at_k := s.setK k
    let rest := State.readPayload (k + 1) n (at_k.xferB dummyByte)
    (at_k.xferByte dummyByte :: rest.1, rest.2)

/-- The read frame of 41_frames R150 without its readiness check: the bytes and the state after. -/
def State.readFrame (addr : Byte) (n : Nat) (s : State) : List Byte × State :=
  let got := State.readPayload 0 n (s.openFrame.sendHeader (readHeader addr))
  (got.1, got.2.closeFrame)

/-- The write frame of 41_frames R160 without its readiness check. -/
def State.writeFrame (addr d : Byte) (s : State) : State :=
  ((s.openFrame.sendHeader (writeHeader addr)).xferB d).closeFrame

/-- RREAD (41_frames R150). -/
def execRread (addr : Byte) (n : Nat) (s : State) : Host.Outcome State Fault Refusal :=
  .next (s.withPins (.rread addr n) fun s => (s.readFrame addr n).2.complete (.bytes (s.readFrame addr n).1))

/-- RWRITE (41_frames R160). -/
def execRwrite (addr d : Byte) (s : State) : Host.Outcome State Fault Refusal :=
  .next (s.withPins (.rwrite addr d) fun s => (s.writeFrame addr d).complete .nothing)

/-- FRAME_RD_HDR: the header step of a read frame, the header being `1aaaaaaa` (30_encoding R91; log 11). -/
def execFrameRdHdr (a : BitVec 7) (s : State) : Host.Outcome State Fault Refusal :=
  .next (s.sendHeader (1#1 ++ a)).settle

/-- FRAME_WR_HDR: the header step of a write frame, the header being `0aaaaaaa` (30_encoding R91; log 11). -/
def execFrameWrHdr (a : BitVec 7) (s : State) : Host.Outcome State Fault Refusal :=
  .next (s.sendHeader (0#1 ++ a)).settle

end Sys2Proof.Machine
end

