-- ==== Sys2Proof/Machine/Calibration.lean ====
section
/-! DEFINITION. The calibration bootstrap RDTRIM (42_calibration). -/

namespace Sys2Proof.Machine

/-- `MemWrite(TRIM, OFF, L, bytes)`, then `OFF <- OFF + L` (42_calibration R181). -/
def State.storeTrim (len : Nat) (bytes : List Byte) (s : State) : State :=
  State.setOff (s.off + len) { s with trim := Memory.writeList s.trim s.off bytes }

/-- The loop of 42_calibration R181 over its regions; all of them are read (R183). -/
def State.trimLoop : List (Byte × Nat) → State → State
  | [], s => s
  | (a, len) :: rest, s => State.trimLoop rest ((s.readFrame a len).2.storeTrim len (s.readFrame a len).1)

/-- The body of RDTRIM (42_calibration R181). -/
def State.readTrim (s : State) : State := State.trimLoop trimRegions (s.setOff 0)

/-- RDTRIM (42_calibration R181). -/
def execRdtrim (s : State) : Host.Outcome State Fault Refusal :=
  .next (s.withPins .rdtrim fun s => s.readTrim.complete (.bool (trimOk s.readTrim.off)))

end Sys2Proof.Machine
end

