-- ==== Sys2Proof/Machine/Identity.lean ====
section
/-! DEFINITION. The identity check IDCHK and the initialisation BEGIN (43_identity). -/

namespace Sys2Proof.Machine

/-- The byte the identity read returns (43_identity R201): the one byte of a read frame of length 1. -/
def State.readId (s : State) : Byte := (s.readFrame Config.idAddr 1).1.headD 0

/-- The body of IDCHK (43_identity R201): `ID_OK` is what it returns. -/
def State.idCheck (s : State) : State :=
  { (s.readFrame Config.idAddr 1).2 with chipId := some s.readId, idOk := idMatches s.readId }

/-- IDCHK (43_identity R201). -/
def execIdchk (s : State) : Host.Outcome State Fault Refusal :=
  .next (s.withPins .idchk fun s => s.idCheck.complete (.bool s.idCheck.idOk))

/-- The three register-initialisation writes, in their order (43_identity R207). -/
def State.initRegisters (s : State) : State :=
  ((s.writeFrame Config.ctrlHumAddr (Config.ctrlHumByte s.cfg.settings)).writeFrame
    Config.ctrlMeasAddr (Config.ctrlMeasByte s.cfg.settings)).writeFrame
    Config.configAddr (Config.configByte s.cfg.settings)

/-- The end of BEGIN: `PHASE` is written and `begin_ok` returned (43_identity R206, R210). -/
def State.finishBegin (ok : Bool) (s : State) : State :=
  State.complete (.bool ok) { s with phase := if ok then .ready else .unusable }

/-- The body of BEGIN (43_identity R206); the early exit is its only branch. -/
def State.beginBody (s : State) : State :=
  let checked := s.pinSetup.idCheck
  if checked.idOk then
    let loaded := checked.initRegisters.readTrim
    loaded.finishBegin (trimOk loaded.off)
  else checked.finishBegin false

/-- BEGIN (43_identity R206): PINCFG makes the pins ready, so no fault arises. -/
def execBegin (s : State) : Host.Outcome State Fault Refusal :=
  .next s.beginBody

end Sys2Proof.Machine
end

