-- ==== Sys2Proof/Machine/Sample.lean ====
section
/-! DEFINITION. The raw sample reader RDDATA (44_sample). -/

namespace Sys2Proof.Machine

/-- `MemWrite(STAGE, OFF, L, bytes)`, then `OFF <- OFF + L` (44_sample R230). -/
def State.storeStage (len : Nat) (bytes : List Byte) (s : State) : State :=
  State.setOff (s.off + len) { s with stage := Memory.writeList s.stage s.off bytes }

/-- The reads of 44_sample R230 over their regions. -/
def State.stageLoop : List (Byte × Nat) → State → State
  | [], s => s
  | (a, len) :: rest, s => State.stageLoop rest ((s.readFrame a len).2.storeStage len (s.readFrame a len).1)

/-- `RAW[j] <- zext_RAW_W(STAGE[j])` (44_sample R230, R231). Every `STAGE` byte has been written when it is read (R230). -/
def State.widenSlot (s : State) (j : Nat) : State :=
  match Memory.read s.stage j with
  | some b => { s with raw := Memory.write s.raw j (widen b) }
  | none   => s

/-- `for j in 0 .. 7` (44_sample R230). -/
def State.widenAll (s : State) : State := (List.range Config.rawSlots).foldl State.widenSlot s

/-- The body of RDDATA (44_sample R230). -/
def State.sampleBody (s : State) : State :=
  (State.stageLoop dataRegions (s.setOff 0)).widenAll.complete (.bool dataOk)

/-- RDDATA (44_sample R230, R235): `NotReady` first (60_exceptions R245); with the phase READY and the pins not ready, which
no run reaches (R230), its first read frame would raise `PinsUnconfigured` (log 14). -/
def execRddata (s : State) : Host.Outcome State Fault Refusal :=
  .next (if s.phase = .ready then s.withPins .rddata State.sampleBody
    else s.raise .notReady (commandWord .rddata))

end Sys2Proof.Machine
end

