-- ==== Sys2Proof/Machine/HostPort.lean ====
section
/-! DEFINITION. What the block takes next (60_exceptions R243 to R245), and the reads of its buffers from outside (20_memory
R63, 10_state R38). -/

namespace Sys2Proof.Machine

/-- What a step finds to do. -/
inductive Fetch where
  /-- The instance refused before: nothing has a step (60_exceptions R244). -/
  | noMeaning (r : RefusalReason)
  /-- The block took a fault before: it is quiescent (60_exceptions R243). -/
  | quiescent (r : FaultRecord)
  /-- Nothing is placed: the block waits (70_reset_and_hazards R281). -/
  | waits
  /-- An instruction, and the state it runs in. -/
  | instr (i : Instr) (s : State)
  /-- A word that spells no operation; the state after its refusal. -/
  | reserved (s : State)
  /-- A read from outside, and the state it is answered in. -/
  | read (r : ReadReq) (s : State)
  deriving DecidableEq, Repr

/-- Take the next input, the checks in the order of 60_exceptions R245: a refused instance, then a faulted block, then the
decoding of the command. -/
def fetch (s : State) : Fetch :=
  match s.refused with
  | some r => .noMeaning r
  | none =>
    match s.fault with
    | some f => .quiescent f
    | none =>
      match s.pending with
      | [] => .waits
      | .code c :: rest =>
        match decode c with
        | .ok i    => .instr i { s with pending := rest }
        | .error _ => .reserved (State.refuse .reservedEncoding { s with pending := rest })
      | .read r :: rest => .read r { s with pending := rest }

/-- What a read hands out, or `UndefRead` if there is nothing (10_state R39, 20_memory R63): no other effect. -/
def State.handOut (s : State) : Option Result → State
  | some r => { s with results := s.results ++ [r] }
  | none   => s.raise .undefRead none

/-- A read from outside (20_memory R63, 10_state R38, R39; log 12). -/
def hostRead (r : ReadReq) (s : State) : Host.Outcome State Fault Refusal :=
  match r with
  | .trim off n =>
    if 1 ≤ n ∧ off + n ≤ Config.trimLen then .next (s.handOut ((Memory.readList s.trim off n).map .bytes))
    else .refused (.noSuchTrim off n)
  | .raw j =>
    if j < Config.rawSlots then .next (s.handOut ((Memory.read s.raw j).map .slot))
    else .refused (.noSuchSlot j)
  | .chipId => .next (s.handOut (s.chipId.map .byte))
  | .idOk   => .next (s.handOut (some (.bool s.idOk)))

/-- A code placed as what the block takes next. -/
def State.place (c : Code) (s : State) : State :=
  { s with pending := .code c :: s.pending }

end Sys2Proof.Machine
end

