-- ==== Sys2Proof/Machine/Dispatch.lean ====
section
/-! DEFINITION. The meaning of every instruction, one arm each. -/

namespace Sys2Proof.Machine

open Sys2Proof

def exec (i : Instr) (s : State) : Host.Outcome State Fault Refusal :=
  match i with
  | .xfer8 tx => Sys2Proof.Machine.execXfer8 tx s
  | .rread addr n => Sys2Proof.Machine.execRread addr n s
  | .rwrite addr d => Sys2Proof.Machine.execRwrite addr d s
  | .pincfg => Sys2Proof.Machine.execPincfg s
  | .idchk => Sys2Proof.Machine.execIdchk s
  | .rdtrim => Sys2Proof.Machine.execRdtrim s
  | .begin => Sys2Proof.Machine.execBegin s
  | .rddata => Sys2Proof.Machine.execRddata s
  | .frameRdHdr a => Sys2Proof.Machine.execFrameRdHdr a s
  | .frameWrHdr a => Sys2Proof.Machine.execFrameWrHdr a s

end Sys2Proof.Machine
end

