-- ==== Sys2Proof/Machine/Step.lean ====
section
/-! DEFINITION. One step: one whole operation, or one read from outside (00_scope R9, 20_memory R74). -/

namespace Sys2Proof.Machine

/-- One step of the machine. -/
def step (s : State) : Host.Outcome State Fault Refusal :=
  match fetch s with
  | .noMeaning r => .refused (.noMeaning r)
  | .quiescent r => .fault (.quiescent r)
  | .waits       => .next s
  | .instr i t   => exec i t
  | .reserved t  => .next t
  | .read r t    => hostRead r t

/-- `s` with the instruction of a table row placed as the next input (log 6, log 18). -/
def State.withFetchWord (s : State) (nbits w : Nat) : State :=
  s.place (tableCode nbits w)

end Sys2Proof.Machine
end

