-- ==== Sys2Proof/Machine/Assembler.lean ====
section
/-! DEFINITION. The assembler syntax and the pseudo-instructions (30_encoding R100, R101), over lists of characters. The spec
fixes the shape of a line; how white space and errors are treated is log 19. -/

namespace Sys2Proof.Machine

/-- Why a line has no encoding (30_encoding R100). -/
inductive AsmError where
  /-- No mnemonic of R100 or R101. -/
  | unknownMnemonic
  /-- The wrong number of operands. -/
  | operandCount
  /-- Neither a number nor, where an address stands, a register symbol. -/
  | badOperand
  /-- The operand does not fit in eight bits. -/
  | tooWide
  deriving DecidableEq, Repr

/-- White space inside a line. -/
def isBlankChar (c : Char) : Bool := c == ' ' || c == '\t'

/-- A line without white space at its ends. -/
def trimBlanks (l : List Char) : List Char :=
  ((l.dropWhile isBlankChar).reverse.dropWhile isBlankChar).reverse

/-- A line without its comment: `;` starts a comment (30_encoding R100). -/
def dropComment (l : List Char) : List Char := l.takeWhile (· != ';')

/-- The operands of a line: what stands between commas (30_encoding R100). -/
def splitCommas : List Char → List (List Char)
  | [] => [[]]
  | c :: cs =>
    if c == ',' then [] :: splitCommas cs
    else match splitCommas cs with
      | [] => [[c]]
      | o :: os => (c :: o) :: os

/-- The value of a digit, decimal or hexadecimal. -/
def digitValue (c : Char) : Option Nat :=
  let n := c.toNat
  if 48 ≤ n ∧ n ≤ 57 then some (n - 48)
  else if 97 ≤ n ∧ n ≤ 102 then some (n - 87)
  else if 65 ≤ n ∧ n ≤ 70 then some (n - 55)
  else none

/-- The value of a row of digits in a base; `none` if one of them is no digit of it. -/
def digitsValue (base : Nat) (acc : Nat) : List Char → Option Nat
  | [] => some acc
  | c :: cs =>
    match digitValue c with
    | some d => if d < base then digitsValue base (acc * base + d) cs else none
    | none => none

/-- A number in decimal or `0x` hexadecimal (30_encoding R100). -/
def parseNumber : List Char → Option Nat
  | '0' :: 'x' :: c :: cs => digitsValue 16 0 (c :: cs)
  | c :: cs => digitsValue 10 0 (c :: cs)
  | [] => none

/-- The register symbols (20_memory R62) and the addresses they stand for (30_encoding R96). -/
def registerSymbols : List (List Char × Byte) :=
  [("ID_ADDR".toList, Config.idAddr), ("CTRL_HUM_ADDR".toList, Config.ctrlHumAddr),
   ("CTRL_MEAS_ADDR".toList, Config.ctrlMeasAddr), ("CONFIG_ADDR".toList, Config.configAddr),
   ("TEMP_DIG_ADDR".toList, Config.tempDigAddr), ("PRESS_DIG_ADDR".toList, Config.pressDigAddr),
   ("HUM_DIG_ADDR1".toList, Config.humDigAddr1), ("HUM_DIG_ADDR2".toList, Config.humDigAddr2),
   ("PRESS_ADDR".toList, Config.pressAddr), ("TEMP_ADDR".toList, Config.tempAddr),
   ("HUM_ADDR".toList, Config.humAddr)]

/-- A numeric operand: "An operand that does not fit in 8 bits is an assembly error" (30_encoding R100). -/
def parseByte (l : List Char) : Except AsmError Byte :=
  match parseNumber l with
  | some n => if n < 256 then .ok (BitVec.ofNat 8 n) else .error .tooWide
  | none => .error .badOperand

/-- An address operand: a register symbol or a number (30_encoding R100). -/
def parseAddr (l : List Char) : Except AsmError Byte :=
  match registerSymbols.lookup l with
  | some a => .ok a
  | none => parseByte l

/-- A line after its comment and outer white space are gone, as mnemonic and operands. -/
def splitLine (l : List Char) : List Char × List (List Char) :=
  let rest := trimBlanks (l.dropWhile (fun c => !isBlankChar c))
  (l.takeWhile (fun c => !isBlankChar c), if rest.isEmpty then [] else (splitCommas rest).map trimBlanks)

/-- A write of one byte to a fixed register: the pseudo-instructions wrhum, wrmeas and wrcfg (30_encoding R101). -/
def asmWrite (a : Byte) : List (List Char) → Except AsmError Instr
  | [d] => (parseByte d).map (.rwrite a)
  | _ => .error .operandCount

/-- An operation without operands. -/
def asmPlain (i : Instr) : List (List Char) → Except AsmError Instr
  | [] => .ok i
  | _ => .error .operandCount

/-- `xfer8 <tx>`. -/
def asmXfer8 : List (List Char) → Except AsmError Instr
  | [t] => (parseByte t).map .xfer8
  | _ => .error .operandCount

/-- `rread <addr>, <n>`. -/
def asmRread : List (List Char) → Except AsmError Instr
  | [a, n] => do return .rread (← parseAddr a) (← parseByte n).toNat
  | _ => .error .operandCount

/-- `rwrite <addr>, <d>`. -/
def asmRwrite : List (List Char) → Except AsmError Instr
  | [a, d] => do return .rwrite (← parseAddr a) (← parseByte d)
  | _ => .error .operandCount

/-- The mnemonics of 30_encoding R100 and the pseudo-instructions of R101 with their expansions. -/
def asmOp (m : List Char) (ops : List (List Char)) : Except AsmError Instr :=
  if m = "xfer8".toList then asmXfer8 ops
  else if m = "rread".toList then asmRread ops
  else if m = "rwrite".toList then asmRwrite ops
  else if m = "pincfg".toList then asmPlain .pincfg ops
  else if m = "idchk".toList then asmPlain .idchk ops
  else if m = "rdtrim".toList then asmPlain .rdtrim ops
  else if m = "begin".toList then asmPlain .begin ops
  else if m = "rddata".toList then asmPlain .rddata ops
  else if m = "rdid".toList then asmPlain (.rread Config.idAddr 1) ops
  else if m = "wrhum".toList then asmWrite Config.ctrlHumAddr ops
  else if m = "wrmeas".toList then asmWrite Config.ctrlMeasAddr ops
  else if m = "wrcfg".toList then asmWrite Config.configAddr ops
  else if m = "dummy".toList then asmPlain (.xfer8 0x00) ops
  else .error .unknownMnemonic

/-- One line (30_encoding R100): one operation, or nothing on a line that is blank or a comment. -/
def asmLine (l : List Char) : Except AsmError (Option Instr) :=
  let line := trimBlanks (dropComment l)
  if line.isEmpty then .ok none
  else (asmOp (splitLine line).1 (splitLine line).2).map some

end Sys2Proof.Machine
end

