-- ==== Sys2Proof/Machine/Observe.lean ====
section
/-! DEFINITION. What a run of the block shows (00_scope R11), in closed form: the bytes the slave answers, the events of a byte
and of a frame in the notation of 95_test_vectors section 0, what sending bytes and what a whole frame leave; and readers of
`EV`: the bytes sent and received (41_frames R152), and the position of the bus (20_memory R75). Nothing here is called by a
step: claims are stated in these words. -/

namespace Sys2Proof.Machine

/-! ## The slave's answers -/

/-- Eight bits as a byte, the first in bit 7 (20_memory R67). -/
def packMsb (f : Nat → Bool) : Byte :=
  BitVec.ofBool (f 0) ++ BitVec.ofBool (f 1) ++ BitVec.ofBool (f 2) ++ BitVec.ofBool (f 3) ++
  BitVec.ofBool (f 4) ++ BitVec.ofBool (f 5) ++ BitVec.ofBool (f 6) ++ BitVec.ofBool (f 7)

/-- The `j`-th byte the slave answers with from here on (00_scope R10). -/
def State.answerByte (s : State) (j : Nat) : Byte :=
  match s.transport with
  | .sw => packMsb (fun i => s.answerBit (8 * j + i))
  | .hw => s.answerHwByte j

/-- The bytes `j .. j+n-1` the slave answers with from here on. -/
def State.answerBytes (s : State) (j : Nat) : Nat → List Byte
  | 0 => []
  | n + 1 => s.answerByte j :: State.answerBytes s (j + 1) n

/-- Bytes sent from here on with the bytes answered, the first of them being answer `j`. -/
def State.exchanges (s : State) (j : Nat) : List Byte → List (Byte × Byte)
  | [] => []
  | t :: ts => (t, s.answerByte j) :: State.exchanges s (j + 1) ts

/-! ## Events -/

/-- The four events of bit `i` of a software byte (40_transport R121). -/
def bitEvents (c : DeviceConfig) (t r : Byte) (i : Nat) : List Event :=
  [.drive c.sckPin false, .drive c.mosiPin (t.getLsbD i), .drive c.sckPin true, .sample c.misoPin (r.getLsbD i)]

/-- The events of one byte: `B(t/r)` in software, `H(t/r)` in hardware (95_test_vectors section 0). -/
def byteEvents (c : DeviceConfig) (x : Byte × Byte) : List Event :=
  match c.transport with
  | .sw => [7, 6, 5, 4, 3, 2, 1, 0].flatMap (bitEvents c x.1 x.2)
  | .hw => [.hwXfer x.1 x.2]

/-- The events before a frame's first byte: `CS0`, or `HB CS0` (40_transport R127). -/
def openEvents (c : DeviceConfig) : List Event :=
  match c.transport with
  | .sw => [.drive c.csPin false]
  | .hw => [.hwBegin 500000 .msbFirst .mode0, .drive c.csPin false]

/-- The events after a frame's last byte: `CS1`, or `CS1 HE` (40_transport R127). -/
def closeEvents (c : DeviceConfig) : List Event :=
  match c.transport with
  | .sw => [.drive c.csPin true]
  | .hw => [.drive c.csPin true, .hwEnd]

/-- The events of a frame in which the bytes of `xs` are exchanged (41_frames R150, R160). -/
def frameEvents (c : DeviceConfig) (xs : List (Byte × Byte)) : List Event :=
  openEvents c ++ xs.flatMap (byteEvents c) ++ closeEvents c

/-- The events of PINCFG (40_transport R130, R131). -/
def setupEvents (c : DeviceConfig) : List Event :=
  match c.transport with
  | .sw => [.drive c.csPin true, .dir c.csPin .output, .dir c.sckPin .output, .dir c.mosiPin .output,
            .dir c.misoPin .input]
  | .hw => [.drive c.csPin true, .dir c.csPin .output, .hwStart]

/-! ## Closed forms -/

/-- How many MISO samples `n` bytes take: eight each in software (40_transport R121), none in hardware. -/
def State.bitsFor (s : State) (n : Nat) : Nat :=
  match s.transport with
  | .sw => 8 * n
  | .hw => 0

/-- How many bytes the hardware peripheral receives in `n` exchanges: one each (40_transport R126), none in software. -/
def State.bytesFor (s : State) (n : Nat) : Nat :=
  match s.transport with
  | .sw => 0
  | .hw => n

/-- The pins after the bytes `ts` were sent: in software the clock latch is high and the data latch is bit 0 of the last byte
(10_state R28); in hardware no pin of the block moves. -/
def State.pinsAfter (ts : List Byte) (s : State) : Pins :=
  match s.transport with
  | .sw =>
    { s.pins with
      latSck := if ts = [] then s.pins.latSck else some true
      latMosi := (ts.getLast?.map (·.getLsbD 0)).or s.pins.latMosi }
  | .hw => s.pins

/-- What sending the bytes `ts` outside a frame leaves (40_transport R121, R125), but for the working registers: the pins, the
events, and the answers taken. -/
def State.sent (ts : List Byte) (s : State) : State :=
  { s with
    pins := s.pinsAfter ts
    ev := s.ev ++ (s.exchanges 0 ts).flatMap (byteEvents s.cfg)
    slaveBits := s.slaveBits.drop (s.bitsFor ts.length)
    slaveBytes := s.slaveBytes.drop (s.bytesFor ts.length)
    answers := s.answers + (s.bitsFor ts.length + s.bytesFor ts.length) }

/-- What a whole frame in which the bytes `ts` are sent leaves (41_frames R150, R160), but for the working registers: as
`State.sent`, with the frame's events, CS high again, and the bracket closed in hardware. -/
def State.framed (ts : List Byte) (s : State) : State :=
  { s.sent ts with
    pins := { s.pinsAfter ts with latCs := some true }
    hwInTxn := match s.transport with
      | .sw => s.hwInTxn
      | .hw => false
    ev := s.ev ++ frameEvents s.cfg (s.exchanges 0 ts) }

/-- What PINCFG leaves (40_transport R130, R131), but for the result it hands out. -/
def State.configured (s : State) : State :=
  { s with
    pins := match s.transport with
      | .sw =>
        { s.pins with
          latCs := some true, dirCs := .output, dirSck := .output, dirMosi := .output, dirMiso := .input }
      | .hw => { s.pins with latCs := some true, dirCs := .output }
    hwStarted := match s.transport with
      | .sw => s.hwStarted
      | .hw => true
    ev := s.ev ++ setupEvents s.cfg }

/-- The bytes of a read frame on MOSI: the header, then `n` dummy bytes (41_frames R150). -/
def readBytes (addr : Byte) (n : Nat) : List Byte := (addr ||| 0x80#8) :: List.replicate n 0x00#8

/-- The bytes of a write frame on MOSI: the header, then the data byte (41_frames R160). -/
def writeBytes (addr d : Byte) : List Byte := [addr &&& 0x7F#8, d]

/-- What the four trim frames leave (42_calibration R180, R181), but for `TRIM` and the working registers. -/
def State.trimFrames (s : State) : State :=
  (((s.framed (readBytes Config.tempDigAddr 6)).framed (readBytes Config.pressDigAddr 18)).framed
    (readBytes Config.humDigAddr1 1)).framed (readBytes Config.humDigAddr2 7)

/-- The 32 calibration bytes of four trim frames whose first header is answer `j`: each region without the answer to its
header (42_calibration R180). -/
def State.trimBytes (s : State) (j : Nat) : List Byte :=
  s.answerBytes (j + 1) 6 ++ s.answerBytes (j + 8) 18 ++ s.answerBytes (j + 27) 1 ++ s.answerBytes (j + 29) 7

/-- What the three register-initialisation writes leave (43_identity R207), but for the working registers. -/
def State.initFrames (s : State) : State :=
  ((s.framed (writeBytes Config.ctrlHumAddr (Config.ctrlHumByte s.cfg.settings))).framed
    (writeBytes Config.ctrlMeasAddr (Config.ctrlMeasByte s.cfg.settings))).framed
    (writeBytes Config.configAddr (Config.configByte s.cfg.settings))

/-- What the three data frames leave (44_sample R230), but for `STAGE`, `RAW` and the working registers. -/
def State.dataFrames (s : State) : State :=
  ((s.framed (readBytes Config.pressAddr 3)).framed (readBytes Config.tempAddr 3)).framed (readBytes Config.humAddr 2)

/-- The eight data bytes of three data frames: each region without the answer to its header (44_sample R230). -/
def State.sampleBytes (s : State) : List Byte :=
  s.answerBytes 1 3 ++ s.answerBytes 5 3 ++ s.answerBytes 9 2

/-! ## Readers of EV -/

/-- The bits driven on the data-out pin, in order (41_frames R152). -/
def drivenBits (c : DeviceConfig) : List Event → List Bool
  | [] => []
  | .drive p v :: es => if p = c.mosiPin then v :: drivenBits c es else drivenBits c es
  | _ :: es => drivenBits c es

/-- The bits sampled on the data-in pin, in order (41_frames R152). -/
def sampledBits (c : DeviceConfig) : List Event → List Bool
  | [] => []
  | .sample p b :: es => if p = c.misoPin then b :: sampledBits c es else sampledBits c es
  | _ :: es => sampledBits c es

/-- The exchanges of the hardware peripheral, in order. -/
def hwExchanges : List Event → List (Byte × Byte)
  | [] => []
  | .hwXfer tx rx :: es => (tx, rx) :: hwExchanges es
  | _ :: es => hwExchanges es

/-- Bits in groups of eight as bytes, the first bit of a group in bit 7 (41_frames R152). -/
def groupBytes : List Bool → List Byte
  | a :: b :: c :: d :: e :: f :: g :: h :: rest =>
    packMsb (fun i => [a, b, c, d, e, f, g, h].getD i false) :: groupBytes rest
  | _ => []

/-- The bytes a list of events shows the block sending (41_frames R152). -/
def sentBytes (c : DeviceConfig) (es : List Event) : List Byte :=
  match c.transport with
  | .sw => groupBytes (drivenBits c es)
  | .hw => (hwExchanges es).map Prod.fst

/-- The bytes a list of events shows the block receiving (41_frames R152). -/
def receivedBytes (c : DeviceConfig) (es : List Event) : List Byte :=
  match c.transport with
  | .sw => groupBytes (sampledBits c es)
  | .hw => (hwExchanges es).map Prod.snd

/-- The levels a list of events drives chip-select to, in order (41_frames R165). -/
def csLevels (c : DeviceConfig) : List Event → List Bool
  | [] => []
  | .drive p v :: es => if p = c.csPin then v :: csLevels c es else csLevels c es
  | _ :: es => csLevels c es

/-- Where the bus stands: outside every frame and bracket; inside a software chip-select window; in hardware inside a bracket
before its frame, in its frame, or after its frame (40_transport R127). -/
inductive BusPos where
  | idle
  | window
  | opened
  | framing
  | framed
  deriving DecidableEq, Repr

/-- Chip-select driven to `v`: low opens a window in software, and in hardware the one frame of the open bracket; high closes
the window, or outside every frame and bracket leaves CS idle (PINCFG). Every other drive of it breaks the frame order
(41_frames R165, 40_transport R127). -/
def BusPos.chipSelect (tr : Transport) (v : Bool) : BusPos → Option BusPos
  | .idle => if v then some .idle else match tr with
    | .sw => some .window
    | .hw => none
  | .window => if v then some .idle else none
  | .opened => if v then none else some .framing
  | .framing => if v then some .framed else none
  | .framed => none

/-- One event moves the position of the bus; `none` where it breaks the frame order. Besides chip-select: a direction, the
peripheral's start and the opening of a bracket stand outside every frame and bracket; a bracket closes only after its one
frame; and an exchange stands in a bracket's frame or outside every bracket (20_memory R75, 40_transport R125, R127). -/
def busNext (c : DeviceConfig) (b : BusPos) : Event → Option BusPos
  | .drive p v => if p = c.csPin then b.chipSelect c.transport v else some b
  | .dir _ _ => if b = .idle then some b else none
  | .sample _ _ => some b
  | .hwStart => if b = .idle then some b else none
  | .hwBegin _ _ _ => if b = .idle then some .opened else none
  | .hwXfer _ _ => if b = .idle ∨ b = .framing then some b else none
  | .hwEnd => if b = .framed then some .idle else none

/-- The position of the bus after a list of events; `none` if one of them breaks the frame order. -/
def busScan (c : DeviceConfig) : BusPos → List Event → Option BusPos
  | b, [] => some b
  | b, e :: es =>
    match busNext c b e with
    | some b' => busScan c b' es
    | none => none

/-- An event of the pins the bit-banger alone uses. -/
def Event.isSoftware (c : DeviceConfig) : Event → Bool
  | .drive p _ => decide (p ≠ c.csPin)
  | .dir p _ => decide (p ≠ c.csPin)
  | .sample _ _ => true
  | .hwStart => false
  | .hwBegin _ _ _ => false
  | .hwXfer _ _ => false
  | .hwEnd => false

/-- An event of the hardware peripheral. -/
def Event.isHardware : Event → Bool
  | .drive _ _ => false
  | .dir _ _ => false
  | .sample _ _ => false
  | .hwStart => true
  | .hwBegin _ _ _ => true
  | .hwXfer _ _ => true
  | .hwEnd => true

/-- An event without what the slave answered in it. -/
def Event.blind : Event → Event
  | .drive p v => .drive p v
  | .dir p d => .dir p d
  | .sample p _ => .sample p false
  | .hwStart => .hwStart
  | .hwBegin f o m => .hwBegin f o m
  | .hwXfer tx _ => .hwXfer tx 0x00#8
  | .hwEnd => .hwEnd

/-- No event of the transport the instance does not have (10_state R22). -/
def ownEvents (c : DeviceConfig) (es : List Event) : Prop :=
  match c.transport with
  | .sw => ∀ e ∈ es, e.isHardware = false
  | .hw => ∀ e ∈ es, e.isSoftware c = false

end Sys2Proof.Machine
end

