-- ==== Sys2Proof/Safety.lean ====
section
/-! DEFINITION. What counts as a good run, and the invariant of the block between operations. -/

namespace Sys2Proof.Machine

/-- The instance has neither refused nor faulted (60_exceptions R243, R244): its next input has a step. -/
def State.live (s : State) : Prop := s.refused = none ∧ s.fault = none

/-- Every offset a buffer lists is below its size. -/
def Memory.below {α : Type} (n : Nat) (m : Memory α) : Prop := ∀ e ∈ m, e.1 < n

/-- The three buffers are in canonical form and inside their sizes (20_memory R60), and no slot exceeds 255 (44_sample R230). -/
structure BuffersOk (s : State) : Prop where
  trimWf    : Memory.wf s.trim
  stageWf   : Memory.wf s.stage
  rawWf     : Memory.wf s.raw
  trimSize  : Memory.below Config.trimLen s.trim
  stageSize : Memory.below Config.rawSlots s.stage
  rawSize   : Memory.below Config.rawSlots s.raw
  rawByte   : ∀ e ∈ s.raw, e.2.toNat ≤ 255

/-- The pins and the peripheral between operations: CS is high once it is an output (40_transport R130), the clock latch is
UNDEF or high (10_state R28), no bracket is open (R29), software never starts the peripheral (R29), and hardware uses only
CS (R25). -/
structure LinesOk (s : State) : Prop where
  csHigh    : s.pins.dirCs = .output → s.pins.latCs = some true
  sckHigh   : s.pins.latSck = none ∨ s.pins.latSck = some true
  noBracket : s.hwInTxn = false
  swNoHw    : s.transport = .sw → s.hwStarted = false
  hwOnlyCs  : s.transport = .hw → s.pins.latSck = none ∧ s.pins.latMosi = none ∧
    s.pins.dirSck = .unconf ∧ s.pins.dirMosi = .unconf ∧ s.pins.dirMiso = .unconf

/-- What READY promises (44_sample R230, 70_reset_and_hazards R283): the pins are ready, and every byte of `TRIM` and
`CHIP_ID` hold a value. -/
structure ReadyOk (s : State) : Prop where
  pins : s.pinsReady = true
  trim : ∀ off < Config.trimLen, (Memory.read s.trim off).isSome
  id   : s.chipId.isSome

/-- `EV` so far: whole frames that never overlap, in hardware each in a bracket that holds it and nothing else (20_memory R75,
40_transport R127), and no event of the other transport (10_state R22). -/
structure EventsOk (s : State) : Prop where
  order : busScan s.cfg .idle s.ev = some .idle
  own   : ownEvents s.cfg s.ev

/-- The invariant of the block between operations. -/
structure Inv (s : State) : Prop where
  config  : s.cfg.wellFormed = true ∨ s.refused = some .malformedConfig
  buffers : BuffersOk s
  lines   : LinesOk s
  ready   : s.phase = .ready → ReadyOk s
  events  : EventsOk s
  work    : s.work = WorkRegs.noValue

/-- Everything but the pin latches, `HW_IN_TXN`, `EV`, the answers taken, the working registers, the results, `FAULT` and
what the operation stores is as before (20_memory R72); the CS latch may be left high by a frame. -/
structure FrameKeepsButFault (s t : State) : Prop where
  cfg       : t.cfg = s.cfg
  latCs     : t.lat .cs = s.lat .cs ∨ t.lat .cs = some true
  dirs      : ∀ l, t.dirn l = s.dirn l
  hwStarted : t.hwStarted = s.hwStarted
  hwInTxn   : t.hwInTxn = s.hwInTxn ∨ (s.transport = .hw ∧ t.hwInTxn = false)
  hwLatches : s.transport = .hw → t.lat .sck = s.lat .sck ∧ t.lat .mosi = s.lat .mosi
  refused   : t.refused = s.refused
  pending   : t.pending = s.pending

/-- `CHIP_ID` and `ID_OK` are as before. -/
def IdKept (s t : State) : Prop := t.chipId = s.chipId ∧ t.idOk = s.idOk

/-- Every byte of `TRIM` reads as before. -/
def TrimKept (s t : State) : Prop := ∀ off, Memory.read t.trim off = Memory.read s.trim off

/-- Every byte of `STAGE` and every slot of `RAW` read as before. -/
def SamplesKept (s t : State) : Prop :=
  ∀ j, Memory.read t.stage j = Memory.read s.stage j ∧ Memory.read t.raw j = Memory.read s.raw j

end Sys2Proof.Machine
end

