-- ==== Sys2Proof/Certificates/Slice0/Obligations.lean ====
section
/-! DEFINITION. The statements for the provers, from the numbered rules of spec/. The closed forms they are said in
(`State.sent`, `State.framed`, `State.configured`, `frameEvents`, `State.answerByte` and so on) stand in
Sys2Proof/Machine/Observe.lean; no step calls them. -/

open Sys2Proof Sys2Proof.Machine

/-! ## Construction and configuration -/

/-- 10_state R39, with R22 for the transport and R23 for the refusal: the value of every element after construction, and
that reading an UNDEF byte or slot faults `UndefRead`. -/
def Obligations.ConstructionValues : Prop :=
  ∀ c : DeviceConfig,
    (State.construct c).cfg = c ∧
    (State.construct c).transport = (if c.mosiPin = .unset then .hw else .sw) ∧
    (∀ l, (State.construct c).lat l = none) ∧
    (∀ l, (State.construct c).dirn l = .unconf) ∧
    (State.construct c).hwStarted = false ∧ (State.construct c).hwInTxn = false ∧
    (State.construct c).chipId = none ∧ (State.construct c).idOk = false ∧
    (∀ off, Memory.read (State.construct c).trim off = none) ∧
    (∀ off, Memory.read (State.construct c).stage off = none) ∧
    (∀ j, Memory.read (State.construct c).raw j = none) ∧
    (State.construct c).phase = .uninit ∧
    (State.construct c).fault = none ∧
    (State.construct c).refused = (if c.wellFormed then none else some .malformedConfig) ∧
    (State.construct c).ev = [] ∧
    (∀ off n, 1 ≤ n → off + n ≤ 32 → ∃ f : FaultRecord, f.reason = .undefRead ∧
      hostRead (.trim off n) (State.construct c) = .next { State.construct c with fault := some f }) ∧
    (∀ j, j < 8 → ∃ f : FaultRecord, f.reason = .undefRead ∧
      hostRead (.raw j) (State.construct c) = .next { State.construct c with fault := some f })

/-- The reset instance is the model's choice (log 1): the software-mode constructor with four distinct pins; it is live and in
the software transport. -/
def Obligations.ResetInstance : Prop :=
  State.reset = State.construct (DeviceConfig.software (.gpio 0) (.gpio 1) (.gpio 2) (.gpio 3)
    { osrsT := 1, osrsH := 1, osrsP := 1, pmode := 3, tSb := 5, filter := 0 }) ∧
  State.reset.live ∧ State.reset.transport = .sw

/-- 10_state R21: what the two constructors store, and that construction emits no event and drives no pin. -/
def Obligations.ConstructorsStoreTheirArguments : Prop :=
  ∀ (cs sck mosi miso : Pin) (st : Settings),
    ((DeviceConfig.hardware cs st).csPin = cs ∧ (DeviceConfig.hardware cs st).sckPin = .unset ∧
      (DeviceConfig.hardware cs st).mosiPin = .unset ∧ (DeviceConfig.hardware cs st).misoPin = .unset ∧
      (DeviceConfig.hardware cs st).settings = st) ∧
    ((DeviceConfig.software cs sck mosi miso st).csPin = cs ∧ (DeviceConfig.software cs sck mosi miso st).sckPin = sck ∧
      (DeviceConfig.software cs sck mosi miso st).mosiPin = mosi ∧
      (DeviceConfig.software cs sck mosi miso st).misoPin = miso ∧
      (DeviceConfig.software cs sck mosi miso st).settings = st) ∧
    ∀ c : DeviceConfig, (State.construct c).ev = [] ∧ (State.construct c).pins = Pins.constructed

/-- 10_state R22: the transport is a function of `CFG` alone, no step changes it, and every event a step emits is one of the
instance's own transport: no pin but CS in hardware, no peripheral event in software. -/
def Obligations.OneTransportPerInstance : Prop :=
  (∀ s : State, s.transport = if s.cfg.mosiPin = .unset then .hw else .sw) ∧
  ∀ s t : State, step s = .next t →
    t.cfg = s.cfg ∧ t.transport = s.transport ∧ ∃ es, t.ev = s.ev ++ es ∧ ownEvents s.cfg es

/-- 10_state R23: a configuration is accepted iff it is one of the two well-formed shapes; any other is refused with
`MalformedConfig`, and then no step has a meaning. -/
def Obligations.MalformedConfigIsRefused : Prop :=
  (∀ c : DeviceConfig,
    ((State.construct c).refused = none ↔
      ((c.sckPin = .unset ∧ c.mosiPin = .unset ∧ c.misoPin = .unset ∧ c.csPin ≠ .unset) ∨
        (c.csPin ≠ .unset ∧ c.sckPin ≠ .unset ∧ c.mosiPin ≠ .unset ∧ c.misoPin ≠ .unset ∧
          [c.csPin, c.sckPin, c.mosiPin, c.misoPin].Pairwise (· ≠ ·)))) ∧
    ((State.construct c).refused = none ∨ (State.construct c).refused = some .malformedConfig)) ∧
  ∀ s : State, s.refused = some .malformedConfig → step s = .refused (.noMeaning .malformedConfig)

/-! ## Encoding -/

/-- Decoding an encoded well-formed instruction gives it back (30_encoding R91, R95, R96, R97). -/
def Obligations.DecodeEncode : Prop :=
  ∀ i : Instr, i.wellFormed = true → decode (encode i) = .ok i

/-- A code that decodes to an instruction is that instruction's encoding, and the instruction is well-formed: no two codes
mean one instruction and no bit is dropped (30_encoding R91, R95, R96, R97). -/
def Obligations.EncodeDecode : Prop :=
  ∀ (c : Code) (i : Instr), decode c = .ok i → encode i = c ∧ i.wellFormed = true

/-- 30_encoding R98: a word is an operation iff `w & mask == match`, with its variable fields as operands. -/
def Obligations.MatchAndMaskTable : Prop :=
  ∀ w : Cmd,
    (∀ tx, decode (.command w) = .ok (.xfer8 tx) ↔ w &&& 0xFF00FFFF#32 = 0x00000000#32 ∧ tx = w.extractLsb' 16 8) ∧
    (∀ a n, decode (.command w) = .ok (.rread a n) ↔
      w &&& 0xFF0000FF#32 = 0x00000001#32 ∧ a = w.extractLsb' 8 8 ∧ n = (w.extractLsb' 16 8).toNat) ∧
    (∀ a d, decode (.command w) = .ok (.rwrite a d) ↔
      w &&& 0xFF0000FF#32 = 0x00000002#32 ∧ a = w.extractLsb' 8 8 ∧ d = w.extractLsb' 16 8) ∧
    (decode (.command w) = .ok .pincfg ↔ w &&& 0xFFFFFFFF#32 = 0x00000003#32) ∧
    (decode (.command w) = .ok .idchk ↔ w &&& 0xFFFFFFFF#32 = 0x00000004#32) ∧
    (decode (.command w) = .ok .rdtrim ↔ w &&& 0xFFFFFFFF#32 = 0x00000005#32) ∧
    (decode (.command w) = .ok .begin ↔ w &&& 0xFFFFFFFF#32 = 0x00000006#32) ∧
    (decode (.command w) = .ok .rddata ↔ w &&& 0xFFFFFFFF#32 = 0x00000007#32)

/-- 30_encoding R97: a word with a reserved `OP`, a non-zero reserved field or a non-zero unused field is refused with
`ReservedEncoding` and has no other effect; every other word is an operation. -/
def Obligations.ReservedWordsAreRefused : Prop :=
  ∀ (w : Cmd),
    ((8 ≤ (w.extractLsb' 0 4).toNat ∨ w.extractLsb' 4 4 ≠ 0#4 ∨ w.extractLsb' 24 8 ≠ 0#8 ∨
        ((w.extractLsb' 0 4).toNat = 0 ∧ w.extractLsb' 8 8 ≠ 0#8) ∨
        (3 ≤ (w.extractLsb' 0 4).toNat ∧ (w.extractLsb' 8 8 ≠ 0#8 ∨ w.extractLsb' 16 8 ≠ 0#8))) →
      ∀ (s : State) (rest : List HostInput), s.live → s.pending = .code (.command w) :: rest →
        step s = .next { s with pending := rest, refused := some .reservedEncoding }) ∧
    (¬ (8 ≤ (w.extractLsb' 0 4).toNat ∨ w.extractLsb' 4 4 ≠ 0#4 ∨ w.extractLsb' 24 8 ≠ 0#8 ∨
        ((w.extractLsb' 0 4).toNat = 0 ∧ w.extractLsb' 8 8 ≠ 0#8) ∨
        (3 ≤ (w.extractLsb' 0 4).toNat ∧ (w.extractLsb' 8 8 ≠ 0#8 ∨ w.extractLsb' 16 8 ≠ 0#8))) →
      ∃ i, decode (.command w) = .ok i)

/-- Words written out from the encoding (30_encoding R102; 95_test_vectors V-D1 to V-D12, W7): sanity. -/
def Obligations.ExampleWords : Prop :=
  decodeTableWord 32 0x00A50000 = some (.xfer8 0xA5) ∧
  decodeTableWord 32 0x0001D001 = some (.rread 0xD0 1) ∧
  decodeTableWord 32 0x00FFFF01 = some (.rread 0xFF 255) ∧
  decodeTableWord 32 0x0027F402 = some (.rwrite 0xF4 0x27) ∧
  decodeTableWord 32 0x00000003 = some .pincfg ∧
  decodeTableWord 32 0x00000004 = some .idchk ∧
  decodeTableWord 32 0x00000005 = some .rdtrim ∧
  decodeTableWord 32 0x00000006 = some .begin ∧
  decodeTableWord 32 0x00000007 = some .rddata ∧
  decodeTableWord 8 0xD0 = some (.frameRdHdr 0x50) ∧
  decodeTableWord 8 0x74 = some (.frameWrHdr 0x74) ∧
  decodeTableWord 32 0x00000008 = none ∧
  decodeTableWord 32 0x00010003 = none ∧
  decodeTableWord 32 0x00000010 = none

/-- 30_encoding R91: the header byte is the read-indicator bit over bits 6:0 of the address, whatever the address's bit 7. -/
def Obligations.HeaderBytes : Prop :=
  ∀ addr : Byte,
    readHeader addr = 1#1 ++ addr.setWidth 7 ∧ writeHeader addr = 0#1 ++ addr.setWidth 7 ∧
    readHeader addr = addr ||| 0x80#8 ∧ writeHeader addr = addr &&& 0x7F#8

/-- Two register addresses that differ only in bit 7 reach the same slave register (20_memory R61): every read frame and every
write frame is the same for both. -/
def Obligations.AddressBit7IsIgnored : Prop :=
  ∀ (s : State) (addr d : Byte) (n : Nat), s.pinsReady = true →
    exec (.rread (addr ^^^ 0x80#8) n) s = exec (.rread addr n) s ∧
    exec (.rwrite (addr ^^^ 0x80#8) d) s = exec (.rwrite addr d) s

/-- 30_encoding R101: every pseudo-instruction assembles to what its expansion assembles to. -/
def Obligations.PseudoInstructions : Prop :=
  asmOp "rdid".toList [] = asmOp "rread".toList ["ID_ADDR".toList, "1".toList] ∧
  (∀ d, asmOp "wrhum".toList [d] = asmOp "rwrite".toList ["CTRL_HUM_ADDR".toList, d]) ∧
  (∀ d, asmOp "wrmeas".toList [d] = asmOp "rwrite".toList ["CTRL_MEAS_ADDR".toList, d]) ∧
  (∀ d, asmOp "wrcfg".toList [d] = asmOp "rwrite".toList ["CONFIG_ADDR".toList, d]) ∧
  asmOp "dummy".toList [] = asmOp "xfer8".toList ["0x00".toList]

/-! ## The step -/

/-- A step of a live instance whose next input decodes is the instruction's meaning, the input being taken. -/
def Obligations.StepRunsTheDecodedInstruction : Prop :=
  ∀ (s : State) (c : Code) (i : Instr) (rest : List HostInput),
    s.live → s.pending = .code c :: rest → decode c = .ok i → step s = exec i { s with pending := rest }

/-- With nothing placed the block waits: the step changes nothing (70_reset_and_hazards R281; the step that waits is the
model's, log 6). -/
def Obligations.StepWaitsForTheHost : Prop :=
  ∀ s : State, s.live → s.pending = [] → step s = .next s

/-- 60_exceptions R243: the state after a fault is the state before the faulting operation (its input taken) plus `FAULT`, so
no event was emitted; and a faulted block takes no further operation. -/
def Obligations.FaultsArePreciseAndFinal : Prop :=
  (∀ s t : State, step s = .next t → t.fault ≠ s.fault →
    t = { s with pending := s.pending.tail, fault := t.fault }) ∧
  ∀ (s : State) (f : FaultRecord), s.refused = none → s.fault = some f → step s = .fault (.quiescent f)

/-- 60_exceptions R244: the two refusals, their codes, what they set, and that nothing has a step afterwards. -/
def Obligations.RefusalsAreFinal : Prop :=
  RefusalReason.malformedConfig.code = 0x21 ∧ RefusalReason.reservedEncoding.code = 0x22 ∧
  (∀ c : DeviceConfig, c.wellFormed = false → (State.construct c).refused = some .malformedConfig) ∧
  (∀ (s : State) (w : Cmd) (e : DecodeError) (rest : List HostInput), s.live →
    s.pending = .code (.command w) :: rest → decode (.command w) = .error e →
    step s = .next { s with pending := rest, refused := some .reservedEncoding }) ∧
  ∀ (s : State) (r : RefusalReason), s.refused = some r → step s = .refused (.noMeaning r)

/-- 10_state R35: `FAULT` and `REFUSED` are never cleared (once one of them is set no step has a next state), and `EV` is
appended to and never rewritten. -/
def Obligations.FaultRefusedAndEventsOnlyGrow : Prop :=
  (∀ s t : State, s.fault ≠ none ∨ s.refused ≠ none → step s ≠ .next t) ∧
  ∀ s t : State, step s = .next t → ∃ es, t.ev = s.ev ++ es

/-- 60_exceptions R241 and R242. What each operation returns is the boolean of its status: IDCHK's of the identity check,
RDTRIM's of the count of bytes its four regions gave, BEGIN's of both in their order, RDDATA's of no error. BEGIN leaves
UNUSABLE iff its status is an error, RDTRIM's error is never reached, and the codes are those of the tables, the fault codes
those of the records that the operations and the reads leave. -/
def Obligations.ErrorAndFaultCodes : Prop :=
  (∀ st : Status, st.toBool = true ↔ st = .none) ∧
  Status.none.code = 0 ∧ Status.identityMismatch.code = 1 ∧ Status.calibrationLengthMismatch.code = 2 ∧
  (∀ s : State, s.pinsReady = true →
    (∃ t, exec .idchk s = .next t ∧
      t.results = s.results ++ [.bool (idStatus (idMatches (s.answerByte 1))).toBool]) ∧
    (∃ t, exec .rdtrim s = .next t ∧
      t.results = s.results ++ [.bool (trimStatus (trimOk (s.trimBytes 0).length)).toBool]) ∧
    trimStatus (trimOk (s.trimBytes 0).length) = .none ∧
    (s.phase = .ready → ∃ t, exec .rddata s = .next t ∧ t.results = s.results ++ [.bool Status.none.toBool])) ∧
  (∀ s : State, ∃ t st, exec .begin s = .next t ∧
    st = beginStatus (idMatches (s.answerByte 1)) (trimOk (s.trimBytes 8).length) ∧
    t.results = s.results ++ [.bool st.toBool] ∧ (t.phase = .unusable ↔ st ≠ .none) ∧
    (st = .identityMismatch ↔ idMatches (s.answerByte 1) = false)) ∧
  (∀ s : State, s.pinsReady = false → ∀ i : Instr,
    (∃ tx, i = .xfer8 tx) ∨ (∃ a n, i = .rread a n) ∨ (∃ a d, i = .rwrite a d) ∨ i = .idchk ∨ i = .rdtrim →
    ∃ t f, exec i s = .next t ∧ t.fault = some f ∧ f.reason.code = 0x11) ∧
  (∀ s : State, s.phase ≠ .ready → ∃ t f, exec .rddata s = .next t ∧ t.fault = some f ∧ f.reason.code = 0x12) ∧
  ∀ s : State, ∀ j < 8, Memory.read s.raw j = none →
    ∃ t f, hostRead (.raw j) s = .next t ∧ t.fault = some f ∧ f.reason.code = 0x13

/-! ## Pins and transports -/

/-- 10_state R27: `PINS_READY`, and that each bus operation issued while it is 0 faults with `PinsUnconfigured`. -/
def Obligations.PinsReadyGuardsTheBus : Prop :=
  ∀ s : State,
    (s.transport = .sw → (s.pinsReady = true ↔
      s.dirn .cs = .output ∧ s.dirn .sck = .output ∧ s.dirn .mosi = .output ∧ s.dirn .miso = .input)) ∧
    (s.transport = .hw → (s.pinsReady = true ↔ s.dirn .cs = .output ∧ s.hwStarted = true)) ∧
    (s.pinsReady = false → ∀ i : Instr,
      (∃ tx, i = .xfer8 tx) ∨ (∃ a n, i = .rread a n) ∨ (∃ a d, i = .rwrite a d) ∨ i = .idchk ∨ i = .rdtrim →
      exec i s = .next { s with fault := some { reason := .pinsUnconfigured, word := commandWord i } })

/-- 40_transport R121: XFER8 in the software transport. Each bit is driven and sampled, most significant first, in 32 events;
the result is the eight samples, the first in bit 7; SCK ends high and MOSI at bit 0 of the byte; CS and everything else
is left alone; and with the pins not ready it faults before any event. -/
def Obligations.Xfer8Software : Prop :=
  ∀ (s : State) (tx : Byte), s.transport = .sw →
    (s.pinsReady = true →
      exec (.xfer8 tx) s = .next { s with
        pins := { s.pins with latSck := some true, latMosi := some (tx.getLsbD 0) }
        ev := s.ev ++ [7, 6, 5, 4, 3, 2, 1, 0].flatMap (bitEvents s.cfg tx (s.answerByte 0))
        slaveBits := s.slaveBits.drop 8
        answers := s.answers + 8
        results := s.results ++ [.byte (s.answerByte 0)]
        work := WorkRegs.noValue } ∧
      (∀ i, i < 8 → (s.answerByte 0).getLsbD (7 - i) = s.answerBit i)) ∧
    (s.pinsReady = false →
      exec (.xfer8 tx) s = .next (s.raise .pinsUnconfigured (commandWord (.xfer8 tx))))

/-- 40_transport R125: XFER8 in the hardware transport is one exchange outside any bracket; and in both transports a lone XFER8
does not drive CS, whatever level CS is at. -/
def Obligations.Xfer8HardwareAndChipSelect : Prop :=
  (∀ (s : State) (tx : Byte), s.cfg.wellFormed = true → s.pinsReady = true →
    ∃ t es, exec (.xfer8 tx) s = .next t ∧ t.ev = s.ev ++ es ∧ csLevels s.cfg es = [] ∧ t.lat .cs = s.lat .cs) ∧
  ∀ (s : State) (tx : Byte), s.transport = .hw →
    (s.pinsReady = true →
      exec (.xfer8 tx) s = .next { s with
        ev := s.ev ++ [.hwXfer tx (s.answerHwByte 0)]
        slaveBytes := s.slaveBytes.drop 1
        answers := s.answers + 1
        results := s.results ++ [.byte (s.answerHwByte 0)]
        work := WorkRegs.noValue }) ∧
    (s.pinsReady = false →
      exec (.xfer8 tx) s = .next (s.raise .pinsUnconfigured (commandWord (.xfer8 tx))))

/-- 40_transport R130: PINCFG in the software transport, from any state, and that the pins are ready afterwards. -/
def Obligations.PincfgSoftware : Prop :=
  ∀ s : State, s.transport = .sw →
    ∃ t, exec .pincfg s = .next t ∧ t.pinsReady = true ∧ t = { s with
      pins := { s.pins with
        latCs := some true, dirCs := .output, dirSck := .output, dirMosi := .output, dirMiso := .input }
      ev := s.ev ++ [.drive s.cfg.csPin true, .dir s.cfg.csPin .output, .dir s.cfg.sckPin .output,
        .dir s.cfg.mosiPin .output, .dir s.cfg.misoPin .input]
      results := s.results ++ [.nothing]
      work := WorkRegs.noValue }

/-- 40_transport R131: PINCFG in the hardware transport, from any state, and that the pins are ready afterwards. -/
def Obligations.PincfgHardware : Prop :=
  ∀ s : State, s.transport = .hw →
    ∃ t, exec .pincfg s = .next t ∧ t.pinsReady = true ∧ t = { s with
      pins := { s.pins with latCs := some true, dirCs := .output }
      hwStarted := true
      ev := s.ev ++ [.drive s.cfg.csPin true, .dir s.cfg.csPin .output, .hwStart]
      results := s.results ++ [.nothing]
      work := WorkRegs.noValue }

/-- The header rows FRAME_RD_HDR and FRAME_WR_HDR (30_encoding R91): the header is sent as one byte of the active transport,
the answer is dropped, and nothing but the pins' latches, the events and the answers taken changes (41_frames R150, R160;
that the step stands alone is the model's, log 11). -/
def Obligations.HeaderStepsSendTheHeader : Prop :=
  ∀ (s : State) (a : BitVec 7),
    exec (.frameRdHdr a) s = .next { s.sent [1#1 ++ a] with work := WorkRegs.noValue } ∧
    exec (.frameWrHdr a) s = .next { s.sent [0#1 ++ a] with work := WorkRegs.noValue }

/-- 10_state R28: after a software byte SCK is high and MOSI at bit 0 of the byte sent; the levels stay through the end of a
frame and until the next byte: PINCFG leaves both alone, and a frame's first event, its CS assert, finds SCK as the byte
before left it. -/
def Obligations.SckStaysHighAfterAByte : Prop :=
  ∀ (s : State), s.transport = .sw → s.pinsReady = true →
    (∀ tx, ∃ t, exec (.xfer8 tx) s = .next t ∧ t.lat .sck = some true ∧ t.lat .mosi = some (tx.getLsbD 0)) ∧
    (∀ addr n, ∃ t, exec (.rread addr n) s = .next t ∧ t.lat .sck = some true ∧
      t.lat .mosi = some (if n = 0 then addr.getLsbD 0 else false)) ∧
    (∀ addr d, ∃ t, exec (.rwrite addr d) s = .next t ∧ t.lat .sck = some true ∧ t.lat .mosi = some (d.getLsbD 0)) ∧
    (∃ t, exec .pincfg s = .next t ∧ t.lat .sck = s.lat .sck ∧ t.lat .mosi = s.lat .mosi) ∧
    s.openFrame.lat .sck = s.lat .sck ∧ s.openFrame.lat .mosi = s.lat .mosi

/-! ## Frames -/

/-- 41_frames R150: RREAD. The header and `n` dummy bytes are sent in one frame, in hardware inside a bracket; the result is
the `n` bytes answered after the header; CS ends high, in software SCK ends high and MOSI at 0, or at bit 0 of the header
for `n = 0`; in hardware the bracket is closed; the events are counted; with the pins not ready it faults before any event. -/
def Obligations.ReadFrame : Prop :=
  ∀ (s : State) (addr : Byte) (n : Nat),
    (s.pinsReady = true →
      ∃ t, exec (.rread addr n) s = .next t ∧
        t = { s.framed ((addr ||| 0x80#8) :: List.replicate n 0x00#8) with
          results := s.results ++ [.bytes (s.answerBytes 1 n)], work := WorkRegs.noValue } ∧
        t.ev = s.ev ++ frameEvents s.cfg (s.exchanges 0 ((addr ||| 0x80#8) :: List.replicate n 0x00#8)) ∧
        t.ev.length = s.ev.length + (match s.transport with | .sw => 2 + 32 * (n + 1) | .hw => 4 + (n + 1)) ∧
        t.lat .cs = some true ∧
        (s.transport = .sw → t.lat .sck = some true ∧
          t.lat .mosi = some (if n = 0 then addr.getLsbD 0 else false)) ∧
        (s.transport = .hw → t.hwInTxn = false)) ∧
    (s.pinsReady = false →
      exec (.rread addr n) s = .next (s.raise .pinsUnconfigured (commandWord (.rread addr n))))

/-- 41_frames R160: RWRITE. The header and the data byte are sent in one frame; both answers are dropped; nothing is returned;
CS ends high, in software SCK ends high and MOSI at bit 0 of the data; in hardware the bracket is closed; with the pins not
ready it faults before any event. -/
def Obligations.WriteFrame : Prop :=
  ∀ (s : State) (addr d : Byte),
    (s.pinsReady = true →
      ∃ t, exec (.rwrite addr d) s = .next t ∧
        t = { s.framed [addr &&& 0x7F#8, d] with
          results := s.results ++ [.nothing], work := WorkRegs.noValue } ∧
        t.ev = s.ev ++ frameEvents s.cfg (s.exchanges 0 [addr &&& 0x7F#8, d]) ∧
        t.ev.length = s.ev.length + (match s.transport with | .sw => 66 | .hw => 6) ∧
        t.lat .cs = some true ∧
        (s.transport = .sw → t.lat .sck = some true ∧ t.lat .mosi = some (d.getLsbD 0)) ∧
        (s.transport = .hw → t.hwInTxn = false)) ∧
    (s.pinsReady = false →
      exec (.rwrite addr d) s = .next (s.raise .pinsUnconfigured (commandWord (.rwrite addr d))))

/-- 41_frames R152: read back from `EV`, an RREAD sends exactly the header and `n` zero bytes, and its result is exactly the
`n` bytes received after the header, in order. -/
def Obligations.ReadRoundTrip : Prop :=
  ∀ (s : State) (addr : Byte) (n : Nat), s.cfg.wellFormed = true → s.pinsReady = true →
    ∃ t es h out, exec (.rread addr n) s = .next t ∧ t.ev = s.ev ++ es ∧
      sentBytes s.cfg es = (addr ||| 0x80#8) :: List.replicate n 0x00#8 ∧
      receivedBytes s.cfg es = h :: out ∧ out.length = n ∧ t.results = s.results ++ [.bytes out]

/-- 41_frames R161: read back from `EV`, an RWRITE sends exactly the header and the data byte. -/
def Obligations.WriteRoundTrip : Prop :=
  ∀ (s : State) (addr d : Byte), s.cfg.wellFormed = true → s.pinsReady = true →
    ∃ t es, exec (.rwrite addr d) s = .next t ∧ t.ev = s.ev ++ es ∧
      sentBytes s.cfg es = [addr &&& 0x7F#8, d]

/-- Each RREAD and RWRITE drives CS low once and then high once, PINCFG drives it high, and XFER8 does not drive it; in hardware
a frame's events begin with the bracket's opening and end with its closing (41_frames R165). The clause that the header steps
FRAME_RD_HDR and FRAME_WR_HDR, standing alone, do not drive it is the model's choice (log 11). -/
def Obligations.ChipSelectWindow : Prop :=
  ∀ s : State, s.cfg.wellFormed = true → s.pinsReady = true →
    (∀ i, (∃ a n, i = Instr.rread a n) ∨ (∃ a d, i = Instr.rwrite a d) →
      ∃ t es, exec i s = .next t ∧ t.ev = s.ev ++ es ∧ csLevels s.cfg es = [false, true] ∧
        (s.transport = .hw → es.head? = some (.hwBegin 500000 .msbFirst .mode0) ∧ es.getLast? = some .hwEnd)) ∧
    (∃ t es, exec .pincfg s = .next t ∧ t.ev = s.ev ++ es ∧ csLevels s.cfg es = [true]) ∧
    (∀ i, (∃ tx, i = Instr.xfer8 tx) ∨ (∃ a, i = Instr.frameRdHdr a) ∨ (∃ a, i = Instr.frameWrHdr a) →
      ∃ t es, exec i s = .next t ∧ t.ev = s.ev ++ es ∧ csLevels s.cfg es = [])

/-- Every bracket any step opens carries 500 kHz, MSB-first, Mode 0 (40_transport R127, 10_state R29). -/
def Obligations.BracketSettings : Prop :=
  ∀ s t : State, step s = .next t →
    ∃ es, t.ev = s.ev ++ es ∧
      ∀ f o m, Event.hwBegin f o m ∈ es → f = 500000 ∧ o = .msbFirst ∧ m = .mode0

/-- The event counts of 70_reset_and_hazards R299, for every operation that completes; PINCFG and BEGIN complete from every
state, the others with the pins ready. -/
def Obligations.EventCounts : Prop :=
  (∀ s : State, ∃ t, exec .pincfg s = .next t ∧
    t.ev.length = s.ev.length + (match s.transport with | .sw => 5 | .hw => 3)) ∧
  (∀ s : State, ∃ t, exec .begin s = .next t ∧ t.ev.length = s.ev.length +
    (if s.answerByte 1 = Config.chipIdFull ∨ s.answerByte 1 = Config.chipIdReduced
      then (match s.transport with | .sw => 1429 | .hw => 79)
      else (match s.transport with | .sw => 71 | .hw => 9))) ∧
  ∀ s : State, s.pinsReady = true →
    (∀ tx, ∃ t, exec (.xfer8 tx) s = .next t ∧
      t.ev.length = s.ev.length + (match s.transport with | .sw => 32 | .hw => 1)) ∧
    (∀ a n, ∃ t, exec (.rread a n) s = .next t ∧
      t.ev.length = s.ev.length + (match s.transport with | .sw => 2 + 32 * (n + 1) | .hw => 5 + n)) ∧
    (∀ a d, ∃ t, exec (.rwrite a d) s = .next t ∧
      t.ev.length = s.ev.length + (match s.transport with | .sw => 66 | .hw => 6)) ∧
    (∃ t, exec .idchk s = .next t ∧ t.ev.length = s.ev.length + (match s.transport with | .sw => 66 | .hw => 6)) ∧
    (∃ t, exec .rdtrim s = .next t ∧
      t.ev.length = s.ev.length + (match s.transport with | .sw => 1160 | .hw => 52)) ∧
    (s.phase = .ready → ∃ t, exec .rddata s = .next t ∧
      t.ev.length = s.ev.length + (match s.transport with | .sw => 358 | .hw => 23))

/-! ## Calibration, identity, samples -/

/-- 42_calibration R181 with R180, R182 and R183: RDTRIM sends the four read frames in their order whatever was answered
before, stores the 32 bytes at their offsets and returns true; with the pins not ready it faults before any event. -/
def Obligations.CalibrationBootstrap : Prop :=
  ∀ s : State,
    (s.pinsReady = true →
      ∃ t, exec .rdtrim s = .next t ∧
        t = { s.trimFrames with
          trim := t.trim, results := s.results ++ [.bool true], work := WorkRegs.noValue } ∧
        t.ev = s.ev ++
          frameEvents s.cfg (s.exchanges 0 ((Config.tempDigAddr ||| 0x80#8) :: List.replicate 6 0x00#8)) ++
          frameEvents s.cfg (s.exchanges 7 ((Config.pressDigAddr ||| 0x80#8) :: List.replicate 18 0x00#8)) ++
          frameEvents s.cfg (s.exchanges 26 ((Config.humDigAddr1 ||| 0x80#8) :: List.replicate 1 0x00#8)) ++
          frameEvents s.cfg (s.exchanges 28 ((Config.humDigAddr2 ||| 0x80#8) :: List.replicate 7 0x00#8)) ∧
        (∀ off, Memory.read t.trim off = ((s.answerBytes 1 6 ++ s.answerBytes 8 18 ++ s.answerBytes 27 1 ++
          s.answerBytes 29 7)[off]?).or (Memory.read s.trim off))) ∧
    (s.pinsReady = false → exec .rdtrim s = .next (s.raise .pinsUnconfigured (commandWord .rdtrim)))

/-- 20_memory R64: where each trim region lies in `TRIM` after an RDTRIM. -/
def Obligations.TrimLayout : Prop :=
  ∀ s : State, s.pinsReady = true →
    ∃ t, exec .rdtrim s = .next t ∧
      (∀ k, k < 6 → Memory.read t.trim k = some (s.answerByte (1 + k))) ∧
      (∀ k, k < 18 → Memory.read t.trim (6 + k) = some (s.answerByte (8 + k))) ∧
      Memory.read t.trim 24 = some (s.answerByte 27) ∧
      (∀ k, k < 7 → Memory.read t.trim (25 + k) = some (s.answerByte (29 + k)))

/-- The allow-list has exactly two entries, and they differ (43_identity R200). -/
def Obligations.AllowListHasTwoEntries : Prop :=
  Config.chipIdFull ≠ Config.chipIdReduced ∧
  ∀ id : Byte, idMatches id = true ↔ id = Config.chipIdFull ∨ id = Config.chipIdReduced

/-- 43_identity R201: IDCHK reads one byte at `ID_ADDR`, keeps it in `CHIP_ID`, and `ID_OK`, which it returns, says whether it
is one of the two; with the pins not ready it faults before any event. -/
def Obligations.IdentityCheck : Prop :=
  ∀ s : State,
    (s.pinsReady = true →
      exec .idchk s = .next { s.framed [Config.idAddr ||| 0x80#8, 0x00#8] with
        chipId := some (s.answerByte 1)
        idOk := decide (s.answerByte 1 = Config.chipIdFull ∨ s.answerByte 1 = Config.chipIdReduced)
        results := s.results ++
          [.bool (decide (s.answerByte 1 = Config.chipIdFull ∨ s.answerByte 1 = Config.chipIdReduced))]
        work := WorkRegs.noValue }) ∧
    (s.pinsReady = false → exec .idchk s = .next (s.raise .pinsUnconfigured (commandWord .idchk)))

/-- 43_identity R208: on an ID mismatch BEGIN ends after the ID read frame: no register-initialisation write, no trim frame,
`TRIM` as it was, `PHASE` UNUSABLE, and false is returned. -/
def Obligations.BeginMismatch : Prop :=
  ∀ s : State, s.answerByte 1 ≠ Config.chipIdFull → s.answerByte 1 ≠ Config.chipIdReduced →
    exec .begin s = .next { s.configured.framed [Config.idAddr ||| 0x80#8, 0x00#8] with
      chipId := some (s.answerByte 1)
      idOk := false
      phase := .unusable
      results := s.results ++ [.bool false]
      work := WorkRegs.noValue }

/-- BEGIN (43_identity R206, R207). With any ID but the two: the pin set-up and the ID read frame, `PHASE` UNUSABLE, false. With
an accepted ID: the pin set-up, the ID read frame, the three writes with the bytes of the settings, the four trim frames, in
that order; `TRIM` filled, `PHASE` READY, and true is returned. -/
def Obligations.BeginSequence : Prop :=
  (∀ s : State, s.answerByte 1 ≠ Config.chipIdFull → s.answerByte 1 ≠ Config.chipIdReduced →
    ∃ t, exec .begin s = .next t ∧ t.chipId = some (s.answerByte 1) ∧ t.idOk = false ∧ t.phase = .unusable ∧
      t.results = s.results ++ [.bool false] ∧ t.trim = s.trim ∧
      t.ev = s.ev ++ setupEvents s.cfg ++
        frameEvents s.cfg (s.exchanges 0 [Config.idAddr ||| 0x80#8, 0x00#8])) ∧
  ∀ s : State, s.answerByte 1 = Config.chipIdFull ∨ s.answerByte 1 = Config.chipIdReduced →
    ∃ t, exec .begin s = .next t ∧
      t = { (s.configured.framed [Config.idAddr ||| 0x80#8, 0x00#8]).initFrames.trimFrames with
        trim := t.trim
        chipId := some (s.answerByte 1)
        idOk := true
        phase := .ready
        results := s.results ++ [.bool true]
        work := WorkRegs.noValue } ∧
      t.ev = s.ev ++ setupEvents s.cfg ++
        frameEvents s.cfg (s.exchanges 0 [Config.idAddr ||| 0x80#8, 0x00#8]) ++
        frameEvents s.cfg (s.exchanges 2 [Config.ctrlHumAddr &&& 0x7F#8, Config.ctrlHumByte s.cfg.settings]) ++
        frameEvents s.cfg (s.exchanges 4 [Config.ctrlMeasAddr &&& 0x7F#8, Config.ctrlMeasByte s.cfg.settings]) ++
        frameEvents s.cfg (s.exchanges 6 [Config.configAddr &&& 0x7F#8, Config.configByte s.cfg.settings]) ++
        frameEvents s.cfg (s.exchanges 8 ((Config.tempDigAddr ||| 0x80#8) :: List.replicate 6 0x00#8)) ++
        frameEvents s.cfg (s.exchanges 15 ((Config.pressDigAddr ||| 0x80#8) :: List.replicate 18 0x00#8)) ++
        frameEvents s.cfg (s.exchanges 34 ((Config.humDigAddr1 ||| 0x80#8) :: List.replicate 1 0x00#8)) ++
        frameEvents s.cfg (s.exchanges 36 ((Config.humDigAddr2 ||| 0x80#8) :: List.replicate 7 0x00#8)) ∧
      (∀ off, Memory.read t.trim off = ((s.answerBytes 9 6 ++ s.answerBytes 16 18 ++ s.answerBytes 35 1 ++
        s.answerBytes 37 7)[off]?).or (Memory.read s.trim off))

/-- 43_identity R210: `PHASE` after BEGIN, from any phase before, and `PHASE` after everything else. -/
def Obligations.PhaseIsWrittenByBeginOnly : Prop :=
  (∀ s : State, ∃ t, exec .begin s = .next t ∧
    (t.phase = .ready ↔ s.answerByte 1 = Config.chipIdFull ∨ s.answerByte 1 = Config.chipIdReduced) ∧
    (t.phase = .ready ∨ t.phase = .unusable) ∧ t.results = s.results ++ [.bool (decide (t.phase = .ready))]) ∧
  ∀ (i : Instr) (s t : State), i ≠ .begin → exec i s = .next t → t.phase = s.phase

/-- 43_identity R211: BEGIN runs the same in every `PHASE`. -/
def Obligations.BeginIgnoresThePhase : Prop :=
  ∀ (s : State) (p : Phase), exec .begin { s with phase := p } = exec .begin s

/-- 44_sample R230: RDDATA. Outside READY it faults with `NotReady` before any event. In READY: the three read frames in their
order, the eight bytes in `STAGE`, each zero-extended in `RAW`, every slot written, true returned. -/
def Obligations.RawSampleReader : Prop :=
  (∀ s : State, s.phase ≠ .ready → exec .rddata s = .next (s.raise .notReady (commandWord .rddata))) ∧
  ∀ s : State, s.phase = .ready → s.pinsReady = true →
    ∃ t, exec .rddata s = .next t ∧
      t = { s.dataFrames with
        stage := t.stage, raw := t.raw, results := s.results ++ [.bool true], work := WorkRegs.noValue } ∧
      t.ev = s.ev ++
        frameEvents s.cfg (s.exchanges 0 ((Config.pressAddr ||| 0x80#8) :: List.replicate 3 0x00#8)) ++
        frameEvents s.cfg (s.exchanges 4 ((Config.tempAddr ||| 0x80#8) :: List.replicate 3 0x00#8)) ++
        frameEvents s.cfg (s.exchanges 8 ((Config.humAddr ||| 0x80#8) :: List.replicate 2 0x00#8)) ∧
      (∀ j, Memory.read t.stage j = ((s.answerBytes 1 3 ++ s.answerBytes 5 3 ++
        s.answerBytes 9 2)[j]?).or (Memory.read s.stage j)) ∧
      (∀ j, Memory.read t.raw j = (((s.answerBytes 1 3 ++ s.answerBytes 5 3 ++
        s.answerBytes 9 2)[j]?).map (fun b => b.setWidth Config.rawW)).or (Memory.read s.raw j))

/-- 44_sample R231: after RDDATA every slot of `RAW` is the `STAGE` byte of its index, zero-extended: its bits 7:0 are the byte
and every higher bit is 0. -/
def Obligations.RawSlotsAreZeroExtended : Prop :=
  ∀ s : State, s.phase = .ready → s.pinsReady = true →
    ∃ t, exec .rddata s = .next t ∧
      ∀ j, j < 8 → ∃ (b : Byte) (v : Slot), Memory.read t.stage j = some b ∧ Memory.read t.raw j = some v ∧
        v.toNat = b.toNat ∧ (∀ i, i < 8 → v.getLsbD i = b.getLsbD i) ∧ (∀ i, 8 ≤ i → v.getLsbD i = false)

/-- 44_sample R235: RDDATA outside READY faults with `NotReady` and emits no event, whether or not the pins are ready. -/
def Obligations.RddataOutsideReadyFaults : Prop :=
  ∀ s : State, s.phase ≠ .ready →
    exec .rddata s = .next { s with fault := some { reason := .notReady, word := some 0x00000007#32 } }

/-- 44_sample R233 (and see 43_identity R202): whatever `CHIP_ID` and `ID_OK` hold, RDDATA ends with the read frame at `HUM_ADDR`, whose
two bytes it stores; and RDDATA is the same whatever they hold. -/
def Obligations.RddataIgnoresTheVariant : Prop :=
  (∀ (s : State) (id : Option Byte) (ok : Bool), s.phase = .ready → s.pinsReady = true →
    ∃ t es, exec .rddata { s with chipId := id, idOk := ok } = .next t ∧
      t.ev = s.ev ++ es ++
        frameEvents s.cfg (s.exchanges 8 ((Config.humAddr ||| 0x80#8) :: List.replicate 2 0x00#8)) ∧
      ∀ k, k < 2 → Memory.read t.raw (6 + k) = some (widen (s.answerByte (9 + k)))) ∧
  ∀ (s t : State) (id : Option Byte) (ok : Bool), exec .rddata s = .next t →
    exec .rddata { s with chipId := id, idOk := ok } = .next { t with chipId := id, idOk := ok }

/-- 44_sample R234: two RDDATA in a row emit the same events except for what the slave answers, and each overwrites `RAW`
completely. -/
def Obligations.RddataIsIdempotent : Prop :=
  ∀ s : State, s.phase = .ready → s.pinsReady = true →
    ∃ t u es fs, exec .rddata s = .next t ∧ exec .rddata t = .next u ∧ t.ev = s.ev ++ es ∧ u.ev = t.ev ++ fs ∧
      fs.map Event.blind = es.map Event.blind ∧
      ∀ j, j < 8 → (∃ b, s.sampleBytes[j]? = some b ∧ Memory.read t.raw j = some (widen b)) ∧
        ∃ b, t.sampleBytes[j]? = some b ∧ Memory.read u.raw j = some (widen b)

/-! ## Reads from outside -/

/-- Reads of `TRIM` by the collaborator and of `RAW` by the host (20_memory R63, 10_state R39): what is stored is handed out
with no other effect, and an UNDEF byte or slot faults `UndefRead`. -/
def Obligations.OutsideReads : Prop :=
  ∀ s : State,
    (∀ off n, 1 ≤ n → off + n ≤ 32 →
      (∀ l : List Byte, l.length = n → (∀ k, k < n → Memory.read s.trim (off + k) = l[k]?) →
        hostRead (.trim off n) s = .next { s with results := s.results ++ [.bytes l] }) ∧
      (∀ k, k < n → Memory.read s.trim (off + k) = none → ∃ f : FaultRecord, f.reason = .undefRead ∧
        hostRead (.trim off n) s = .next { s with fault := some f })) ∧
    (∀ j, j < 8 →
      (∀ v, Memory.read s.raw j = some v →
        hostRead (.raw j) s = .next { s with results := s.results ++ [.slot v] }) ∧
      (Memory.read s.raw j = none → ∃ f : FaultRecord, f.reason = .undefRead ∧
        hostRead (.raw j) s = .next { s with fault := some f }))

/-! ## Frames: what an operation leaves alone -/

/-- XFER8, the header steps and PINCFG, when they give a next state: the buffers read as before, the identity registers, the
phase and the configuration are as before; XFER8 and the header steps leave CS, the directions and the peripheral's bits
alone; PINCFG leaves the clock and data latches and the open-bracket bit alone. That the header steps FRAME_RD_HDR and
FRAME_WR_HDR stand alone, with no CS event and no readiness check, is the model's choice (log 11), and so are the clauses on
them. -/
def Obligations.FrameOfPinOperations : Prop :=
  ∀ (i : Instr) (s t : State),
    (∃ tx, i = .xfer8 tx) ∨ (∃ a, i = .frameRdHdr a) ∨ (∃ a, i = .frameWrHdr a) ∨ i = .pincfg →
    exec i s = .next t →
    TrimKept s t ∧ SamplesKept s t ∧ IdKept s t ∧ t.phase = s.phase ∧ t.cfg = s.cfg ∧ t.refused = s.refused ∧
    t.pending = s.pending ∧ t.hwInTxn = s.hwInTxn ∧
    (i ≠ .pincfg → t.lat .cs = s.lat .cs ∧ (∀ l, t.dirn l = s.dirn l) ∧ t.hwStarted = s.hwStarted) ∧
    (i = .pincfg → t.lat .sck = s.lat .sck ∧ t.lat .mosi = s.lat .mosi ∧ t.fault = s.fault) ∧
    (t.fault = s.fault ∨ s.pinsReady = false)

/-- RREAD, RWRITE and IDCHK, when they give a next state: the directions, the buffers, the phase and the configuration are as
before, and RREAD and RWRITE leave the identity registers alone. -/
def Obligations.FrameOfRegisterFrames : Prop :=
  ∀ (i : Instr) (s t : State),
    (∃ a n, i = .rread a n) ∨ (∃ a d, i = .rwrite a d) ∨ i = .idchk → exec i s = .next t →
    TrimKept s t ∧ SamplesKept s t ∧ t.phase = s.phase ∧ FrameKeepsButFault s t ∧
    (i ≠ .idchk → IdKept s t) ∧ (t.fault = s.fault ∨ s.pinsReady = false)

/-- RDTRIM stores to `TRIM` at offsets 0 to 31 and nowhere else; the sample buffers, the identity registers, the phase, the
directions and the configuration are as before. -/
def Obligations.FrameOfRdtrim : Prop :=
  ∀ s t : State, exec .rdtrim s = .next t →
    (∀ off, 32 ≤ off → Memory.read t.trim off = Memory.read s.trim off) ∧
    SamplesKept s t ∧ IdKept s t ∧ t.phase = s.phase ∧ FrameKeepsButFault s t ∧
    (t.fault = s.fault ∨ s.pinsReady = false)

/-- BEGIN stores to `TRIM` at offsets 0 to 31 and nowhere else, and on an ID mismatch nowhere; the sample buffers, the
configuration, `FAULT` and `REFUSED` are as before. -/
def Obligations.FrameOfBegin : Prop :=
  ∀ s t : State, exec .begin s = .next t →
    (∀ off, 32 ≤ off → Memory.read t.trim off = Memory.read s.trim off) ∧
    (t.idOk = false → TrimKept s t) ∧ SamplesKept s t ∧ t.cfg = s.cfg ∧ t.fault = s.fault ∧
    t.refused = s.refused ∧ t.pending = s.pending

/-- RDDATA stores to `STAGE` and `RAW` at offsets 0 to 7 and nowhere else; `TRIM`, the identity registers, the phase, the
directions and the configuration are as before. -/
def Obligations.FrameOfRddata : Prop :=
  ∀ s t : State, exec .rddata s = .next t →
    (∀ j, 8 ≤ j → Memory.read t.stage j = Memory.read s.stage j ∧ Memory.read t.raw j = Memory.read s.raw j) ∧
    TrimKept s t ∧ IdKept s t ∧ t.phase = s.phase ∧ FrameKeepsButFault s t ∧
    (t.fault = s.fault ∨ s.phase ≠ .ready ∨ s.pinsReady = false)

/-! ## Whole-machine rules -/

/-- Which operation writes which state (10_state R38, with R29, R30, R31 and R32): over every instruction. -/
def Obligations.AccessRights : Prop :=
  ∀ (i : Instr) (s t : State), exec i s = .next t →
    t.cfg = s.cfg ∧
    (¬ (∀ l, t.dirn l = s.dirn l) → i = .pincfg ∨ i = .begin) ∧
    (t.hwStarted ≠ s.hwStarted → (i = .pincfg ∨ i = .begin) ∧ s.transport = .hw ∧ t.hwStarted = true) ∧
    (t.hwInTxn ≠ s.hwInTxn → s.transport = .hw ∧ t.hwInTxn = false) ∧
    (t.chipId ≠ s.chipId ∨ t.idOk ≠ s.idOk → i = .idchk ∨ i = .begin) ∧
    (t.trim ≠ s.trim → i = .rdtrim ∨ i = .begin) ∧
    (t.stage ≠ s.stage ∨ t.raw ≠ s.raw → i = .rddata) ∧
    (t.lat .sck ≠ s.lat .sck ∨ t.lat .mosi ≠ s.lat .mosi → s.transport = .sw ∧ i ≠ .pincfg)

/-- What the working registers held before an operation changes nothing (10_state R36): the operation ends the same, or, where
it faults before it starts, with the registers left alone. -/
def Obligations.WorkingRegistersCarryNothing : Prop :=
  ∀ (i : Instr) (s t : State) (w : WorkRegs), exec i s = .next t →
    exec i { s with work := w } = .next t ∨
    (t.fault ≠ none ∧ exec i { s with work := w } = .next { t with work := w })

/-- What the slave answers to a header, and to the data byte of a write, is dropped (41_frames R150, R160): two RREADs that
differ in the answer to the header (in software in its eight samples), and two RWRITEs that differ in both answers (in
software in their sixteen samples), end in states that differ in `EV` alone. -/
def Obligations.DroppedAnswersChangeNothing : Prop :=
  ∀ (s : State) (addr d : Byte) (n : Nat), s.pinsReady = true →
    (s.transport = .hw → ∀ (x y x' y' : Byte) (l : List Byte),
      (∃ t u, exec (.rread addr n) { s with slaveBytes := x :: l } = .next t ∧
        exec (.rread addr n) { s with slaveBytes := y :: l } = .next u ∧ u = { t with ev := u.ev }) ∧
      (∃ t u, exec (.rwrite addr d) { s with slaveBytes := x :: x' :: l } = .next t ∧
        exec (.rwrite addr d) { s with slaveBytes := y :: y' :: l } = .next u ∧ u = { t with ev := u.ev })) ∧
    (s.transport = .sw → ∀ xs ys l : List Bool,
      (xs.length = 8 → ys.length = 8 →
        ∃ t u, exec (.rread addr n) { s with slaveBits := xs ++ l } = .next t ∧
          exec (.rread addr n) { s with slaveBits := ys ++ l } = .next u ∧ u = { t with ev := u.ev }) ∧
      (xs.length = 16 → ys.length = 16 →
        ∃ t u, exec (.rwrite addr d) { s with slaveBits := xs ++ l } = .next t ∧
          exec (.rwrite addr d) { s with slaveBits := ys ++ l } = .next u ∧ u = { t with ev := u.ev }))

/-- The invariant holds after construction, with any configuration. -/
def Obligations.InvAtConstruction : Prop :=
  ∀ c : DeviceConfig, Inv (State.construct c)

/-- Every step keeps the invariant: the buffers stay canonical and inside their sizes, READY means that the pins are ready and
`TRIM` is filled, no bracket is left open, CS is high between operations, `EV` is whole frames that never overlap, in hardware
each in a bracket of its own that holds just it (20_memory R75, 40_transport R127), and the working registers hold nothing. -/
def Obligations.StepKeepsInv : Prop :=
  ∀ s t : State, Inv s → step s = .next t → Inv t
end

