-- ==== Sys2Proof/Laws/Closed.lean ====
section
/-! SUPPORT. The fields of the closed forms of Machine/Observe.lean: what sending bytes, a frame and PINCFG leave alone; and the
position of the bus over joined lists of events. -/

namespace Sys2Proof.Machine

variable (s : State) (ts : List Byte)

/-! ### State.sent -/

@[simp] theorem State.sent_cfg : (s.sent ts).cfg = s.cfg := rfl
@[simp] theorem State.sent_hwStarted : (s.sent ts).hwStarted = s.hwStarted := rfl
@[simp] theorem State.sent_hwInTxn : (s.sent ts).hwInTxn = s.hwInTxn := rfl
@[simp] theorem State.sent_chipId : (s.sent ts).chipId = s.chipId := rfl
@[simp] theorem State.sent_idOk : (s.sent ts).idOk = s.idOk := rfl
@[simp] theorem State.sent_trim : (s.sent ts).trim = s.trim := rfl
@[simp] theorem State.sent_stage : (s.sent ts).stage = s.stage := rfl
@[simp] theorem State.sent_raw : (s.sent ts).raw = s.raw := rfl
@[simp] theorem State.sent_phase : (s.sent ts).phase = s.phase := rfl
@[simp] theorem State.sent_fault : (s.sent ts).fault = s.fault := rfl
@[simp] theorem State.sent_refused : (s.sent ts).refused = s.refused := rfl
@[simp] theorem State.sent_work : (s.sent ts).work = s.work := rfl
@[simp] theorem State.sent_results : (s.sent ts).results = s.results := rfl
@[simp] theorem State.sent_pending : (s.sent ts).pending = s.pending := rfl

/-! ### State.framed -/

@[simp] theorem State.framed_cfg : (s.framed ts).cfg = s.cfg := rfl
@[simp] theorem State.framed_hwStarted : (s.framed ts).hwStarted = s.hwStarted := rfl
@[simp] theorem State.framed_chipId : (s.framed ts).chipId = s.chipId := rfl
@[simp] theorem State.framed_idOk : (s.framed ts).idOk = s.idOk := rfl
@[simp] theorem State.framed_trim : (s.framed ts).trim = s.trim := rfl
@[simp] theorem State.framed_stage : (s.framed ts).stage = s.stage := rfl
@[simp] theorem State.framed_raw : (s.framed ts).raw = s.raw := rfl
@[simp] theorem State.framed_phase : (s.framed ts).phase = s.phase := rfl
@[simp] theorem State.framed_fault : (s.framed ts).fault = s.fault := rfl
@[simp] theorem State.framed_refused : (s.framed ts).refused = s.refused := rfl
@[simp] theorem State.framed_work : (s.framed ts).work = s.work := rfl
@[simp] theorem State.framed_results : (s.framed ts).results = s.results := rfl
@[simp] theorem State.framed_pending : (s.framed ts).pending = s.pending := rfl
@[simp] theorem State.framed_ev : (s.framed ts).ev = s.ev ++ frameEvents s.cfg (s.exchanges 0 ts) := rfl
@[simp] theorem State.framed_latCs : (s.framed ts).pins.latCs = some true := rfl

/-! ### State.configured -/

@[simp] theorem State.configured_cfg : s.configured.cfg = s.cfg := rfl
@[simp] theorem State.configured_hwInTxn : s.configured.hwInTxn = s.hwInTxn := rfl
@[simp] theorem State.configured_chipId : s.configured.chipId = s.chipId := rfl
@[simp] theorem State.configured_idOk : s.configured.idOk = s.idOk := rfl
@[simp] theorem State.configured_trim : s.configured.trim = s.trim := rfl
@[simp] theorem State.configured_stage : s.configured.stage = s.stage := rfl
@[simp] theorem State.configured_raw : s.configured.raw = s.raw := rfl
@[simp] theorem State.configured_phase : s.configured.phase = s.phase := rfl
@[simp] theorem State.configured_fault : s.configured.fault = s.fault := rfl
@[simp] theorem State.configured_refused : s.configured.refused = s.refused := rfl
@[simp] theorem State.configured_work : s.configured.work = s.work := rfl
@[simp] theorem State.configured_results : s.configured.results = s.results := rfl
@[simp] theorem State.configured_pending : s.configured.pending = s.pending := rfl
@[simp] theorem State.configured_slaveBits : s.configured.slaveBits = s.slaveBits := rfl
@[simp] theorem State.configured_slaveBytes : s.configured.slaveBytes = s.slaveBytes := rfl
@[simp] theorem State.configured_answers : s.configured.answers = s.answers := rfl
@[simp] theorem State.configured_ev : s.configured.ev = s.ev ++ setupEvents s.cfg := rfl

/-! ### State.trimFrames -/

@[simp] theorem State.trimFrames_cfg : s.trimFrames.cfg = s.cfg := rfl
@[simp] theorem State.trimFrames_hwStarted : s.trimFrames.hwStarted = s.hwStarted := rfl
@[simp] theorem State.trimFrames_chipId : s.trimFrames.chipId = s.chipId := rfl
@[simp] theorem State.trimFrames_idOk : s.trimFrames.idOk = s.idOk := rfl
@[simp] theorem State.trimFrames_trim : s.trimFrames.trim = s.trim := rfl
@[simp] theorem State.trimFrames_stage : s.trimFrames.stage = s.stage := rfl
@[simp] theorem State.trimFrames_raw : s.trimFrames.raw = s.raw := rfl
@[simp] theorem State.trimFrames_phase : s.trimFrames.phase = s.phase := rfl
@[simp] theorem State.trimFrames_fault : s.trimFrames.fault = s.fault := rfl
@[simp] theorem State.trimFrames_refused : s.trimFrames.refused = s.refused := rfl
@[simp] theorem State.trimFrames_work : s.trimFrames.work = s.work := rfl
@[simp] theorem State.trimFrames_results : s.trimFrames.results = s.results := rfl
@[simp] theorem State.trimFrames_pending : s.trimFrames.pending = s.pending := rfl

/-! ### State.initFrames -/

@[simp] theorem State.initFrames_cfg : s.initFrames.cfg = s.cfg := rfl
@[simp] theorem State.initFrames_hwStarted : s.initFrames.hwStarted = s.hwStarted := rfl
@[simp] theorem State.initFrames_chipId : s.initFrames.chipId = s.chipId := rfl
@[simp] theorem State.initFrames_idOk : s.initFrames.idOk = s.idOk := rfl
@[simp] theorem State.initFrames_trim : s.initFrames.trim = s.trim := rfl
@[simp] theorem State.initFrames_stage : s.initFrames.stage = s.stage := rfl
@[simp] theorem State.initFrames_raw : s.initFrames.raw = s.raw := rfl
@[simp] theorem State.initFrames_phase : s.initFrames.phase = s.phase := rfl
@[simp] theorem State.initFrames_fault : s.initFrames.fault = s.fault := rfl
@[simp] theorem State.initFrames_refused : s.initFrames.refused = s.refused := rfl
@[simp] theorem State.initFrames_work : s.initFrames.work = s.work := rfl
@[simp] theorem State.initFrames_results : s.initFrames.results = s.results := rfl
@[simp] theorem State.initFrames_pending : s.initFrames.pending = s.pending := rfl

/-! ### State.dataFrames -/

@[simp] theorem State.dataFrames_cfg : s.dataFrames.cfg = s.cfg := rfl
@[simp] theorem State.dataFrames_hwStarted : s.dataFrames.hwStarted = s.hwStarted := rfl
@[simp] theorem State.dataFrames_chipId : s.dataFrames.chipId = s.chipId := rfl
@[simp] theorem State.dataFrames_idOk : s.dataFrames.idOk = s.idOk := rfl
@[simp] theorem State.dataFrames_trim : s.dataFrames.trim = s.trim := rfl
@[simp] theorem State.dataFrames_stage : s.dataFrames.stage = s.stage := rfl
@[simp] theorem State.dataFrames_raw : s.dataFrames.raw = s.raw := rfl
@[simp] theorem State.dataFrames_phase : s.dataFrames.phase = s.phase := rfl
@[simp] theorem State.dataFrames_fault : s.dataFrames.fault = s.fault := rfl
@[simp] theorem State.dataFrames_refused : s.dataFrames.refused = s.refused := rfl
@[simp] theorem State.dataFrames_work : s.dataFrames.work = s.work := rfl
@[simp] theorem State.dataFrames_results : s.dataFrames.results = s.results := rfl
@[simp] theorem State.dataFrames_pending : s.dataFrames.pending = s.pending := rfl

/-! ### The position of the bus -/

/-- Scanning events after events. -/
theorem busScan_append (c : DeviceConfig) (es fs : List Event) : ∀ b : BusPos,
    busScan c b (es ++ fs) = (busScan c b es).bind fun b' => busScan c b' fs := by
  induction es with
  | nil => exact fun _ => rfl
  | cons e es ih =>
    intro b
    simp only [List.cons_append, busScan]
    cases busNext c b e with
    | none => rfl
    | some b' => exact ih b'

end Sys2Proof.Machine
end

