-- ==== Sys2Proof/Laws/Decode.lean ====
section
/-! SUPPORT. The fields of a command word laid out by its fields, the word as its fields, and the two header forms. -/

namespace Sys2Proof

/-! ### Fields of `commandOf` (30_encoding R94) -/

@[simp] theorem fieldOp_commandOf (op : BitVec 4) (a b : Byte) : fieldOp (commandOf op a b) = op := by
  apply BitVec.eq_of_getLsbD_eq
  intro i hi
  simp only [fieldOp, commandOf, BitVec.getLsbD_extractLsb', BitVec.getLsbD_append]
  simp [hi]

@[simp] theorem fieldRsv0_commandOf (op : BitVec 4) (a b : Byte) : fieldRsv0 (commandOf op a b) = 0 := by
  apply BitVec.eq_of_getLsbD_eq
  intro i hi
  simp only [fieldRsv0, commandOf, BitVec.getLsbD_extractLsb', BitVec.getLsbD_append]
  simp [hi, show ¬ (4 + i < 4) by omega]

@[simp] theorem fieldA_commandOf (op : BitVec 4) (a b : Byte) : fieldA (commandOf op a b) = a := by
  apply BitVec.eq_of_getLsbD_eq
  intro i hi
  simp only [fieldA, commandOf, BitVec.getLsbD_extractLsb', BitVec.getLsbD_append]
  simp [hi, show ¬ (8 + i < 4) by omega, show ¬ (8 + i - 4 < 4) by omega,
    show 8 + i - 4 - 4 = i by omega]

@[simp] theorem fieldB_commandOf (op : BitVec 4) (a b : Byte) : fieldB (commandOf op a b) = b := by
  apply BitVec.eq_of_getLsbD_eq
  intro i hi
  simp only [fieldB, commandOf, BitVec.getLsbD_extractLsb', BitVec.getLsbD_append]
  simp [hi, show ¬ (16 + i < 4) by omega, show ¬ (16 + i - 4 < 4) by omega, show ¬ (16 + i - 4 - 4 < 8) by omega,
    show 16 + i - 4 - 4 - 8 = i by omega]

@[simp] theorem fieldRsv1_commandOf (op : BitVec 4) (a b : Byte) : fieldRsv1 (commandOf op a b) = 0 := by
  apply BitVec.eq_of_getLsbD_eq
  intro i hi
  simp only [fieldRsv1, commandOf, BitVec.getLsbD_extractLsb', BitVec.getLsbD_append]
  simp [show ¬ (24 + i < 4) by omega, show ¬ (24 + i - 4 < 4) by omega, show ¬ (24 + i - 4 - 4 < 8) by omega,
    show ¬ (24 + i - 4 - 4 - 8 < 8) by omega]

/-- A command word is its five fields (30_encoding R94). -/
theorem command_eq_fields (w : Cmd) : w = fieldRsv1 w ++ fieldB w ++ fieldA w ++ fieldRsv0 w ++ fieldOp w := by
  apply BitVec.eq_of_getLsbD_eq
  intro i hi
  simp only [fieldRsv1, fieldB, fieldA, fieldRsv0, fieldOp, BitVec.getLsbD_extractLsb', BitVec.getLsbD_append]
  by_cases h1 : i < 4
  · simp [h1]
  by_cases h2 : i - 4 < 4
  · simp [h1, h2, show 4 + (i - 4) = i by omega]
  by_cases h3 : i - 4 - 4 < 8
  · simp [h1, h2, h3, show 8 + (i - 4 - 4) = i by omega]
  by_cases h4 : i - 4 - 4 - 8 < 8
  · simp [h1, h2, h3, h4, show 16 + (i - 4 - 4 - 8) = i by omega]
  · simp [h1, h2, h3, h4, show i - 4 - 4 - 8 - 8 < 8 by omega, show 24 + (i - 4 - 4 - 8 - 8) = i by omega]

/-! ### Headers (30_encoding R91) -/

theorem decodeHeader_read : ∀ a : BitVec 7, decodeHeader (1#1 ++ a) = .frameRdHdr a := by decide

theorem decodeHeader_write : ∀ a : BitVec 7, decodeHeader (0#1 ++ a) = .frameWrHdr a := by decide

theorem encode_decodeHeader : ∀ b : Byte, encode (decodeHeader b) = .header b := by decide

end Sys2Proof
end

