-- ==== Sys2Proof/Laws/Memory.lean ====
section
/-! SUPPORT. The laws of the buffers: what a read finds after a write, and that every write keeps the canonical form. -/

namespace Sys2Proof.Machine

variable {α : Type}

theorem Memory.read_write_same (m : Memory α) (a : Nat) (v : α) : Memory.read (Memory.write m a v) a = some v := by
  induction m with
  | nil => simp [Memory.write, Memory.read]
  | cons e m ih =>
    obtain ⟨k, u⟩ := e
    by_cases h1 : a < k
    · simp [Memory.write, Memory.read, h1]
    · by_cases h2 : a = k
      · simp [Memory.write, Memory.read, h2]
      · simp [Memory.write, Memory.read, h1, h2, ih]

theorem Memory.read_write_other (m : Memory α) {a b : Nat} (v : α) (h : b ≠ a) :
    Memory.read (Memory.write m a v) b = Memory.read m b := by
  induction m with
  | nil => simp [Memory.write, Memory.read, h]
  | cons e m ih =>
    obtain ⟨k, u⟩ := e
    by_cases h1 : a < k
    · simp [Memory.write, Memory.read, h1, h]
    · by_cases h2 : a = k
      · subst h2; simp [Memory.write, Memory.read, h]
      · by_cases h3 : b = k <;> simp [Memory.write, Memory.read, h1, h2, h3, ih]

/-- What a read finds after one write. -/
theorem Memory.read_write (m : Memory α) (a b : Nat) (v : α) :
    Memory.read (Memory.write m a v) b = if b = a then some v else Memory.read m b := by
  split
  · next h => subst h; exact Memory.read_write_same m b v
  · next h => exact Memory.read_write_other m v h

/-- What a read finds after a row of writes. -/
theorem Memory.read_writeList (l : List α) : ∀ (m : Memory α) (off a : Nat),
    Memory.read (Memory.writeList m off l) a =
      if off ≤ a ∧ a < off + l.length then l[a - off]? else Memory.read m a := by
  induction l with
  | nil => intro m off a; simp [Memory.writeList]
  | cons v vs ih =>
    intro m off a
    rw [Memory.writeList, ih, Memory.read_write]
    by_cases h : a = off
    · subst h; simp
    · by_cases h2 : off + 1 ≤ a ∧ a < off + 1 + vs.length
      · have h3 : off ≤ a ∧ a < off + (v :: vs).length := by simp only [List.length_cons]; omega
        have h4 : a - off = a - (off + 1) + 1 := by omega
        simp only [h2, h3, and_self, if_true, h4, List.getElem?_cons_succ]
      · have h3 : ¬ (off ≤ a ∧ a < off + (v :: vs).length) := by simp only [List.length_cons]; omega
        simp only [h2, h3, if_false, h]

theorem Memory.mem_write {m : Memory α} {a : Nat} {v : α} {e : Nat × α} (h : e ∈ Memory.write m a v) :
    e = (a, v) ∨ e ∈ m := by
  induction m with
  | nil => simpa [Memory.write] using h
  | cons x m ih =>
    obtain ⟨k, u⟩ := x
    by_cases h1 : a < k
    · simpa [Memory.write, h1] using h
    · by_cases h2 : a = k
      · subst h2
        rcases (by simpa [Memory.write] using h : e = (a, v) ∨ e ∈ m) with h | h
        · exact .inl h
        · exact .inr (List.mem_cons_of_mem _ h)
      · simp only [Memory.write, h1, h2, if_false, List.mem_cons] at h
        rcases h with h | h
        · exact .inr (by simp [h])
        · rcases ih h with h | h
          · exact .inl h
          · exact .inr (List.mem_cons_of_mem _ h)

/-- A write keeps the canonical form. -/
theorem Memory.wf_write {m : Memory α} (h : Memory.wf m) (a : Nat) (v : α) : Memory.wf (Memory.write m a v) := by
  induction m with
  | nil => simp [Memory.write, Memory.wf]
  | cons x m ih =>
    obtain ⟨k, u⟩ := x
    obtain ⟨hk, hm⟩ := List.pairwise_cons.1 h
    by_cases h1 : a < k
    · simp only [Memory.write, h1, if_true]
      refine List.pairwise_cons.2 ⟨fun e he => ?_, h⟩
      rcases List.mem_cons.1 he with rfl | he
      · exact h1
      · exact Nat.lt_trans h1 (hk e he)
    · by_cases h2 : a = k
      · simp only [Memory.write, h2, Nat.lt_irrefl, if_false, if_true]
        exact List.pairwise_cons.2 ⟨hk, hm⟩
      · simp only [Memory.write, h1, h2, if_false]
        refine List.pairwise_cons.2 ⟨fun e he => ?_, ih hm⟩
        rcases Memory.mem_write he with rfl | he
        · show k < a; omega
        · exact hk e he

theorem Memory.wf_writeList (l : List α) : ∀ {m : Memory α}, Memory.wf m → ∀ off, Memory.wf (Memory.writeList m off l) := by
  induction l with
  | nil => intro m h off; exact h
  | cons v vs ih => intro m h off; exact ih (Memory.wf_write h off v) _

/-- What an entry of a buffer can be after a row of writes: one of the values written, at its offset, or an old entry. -/
theorem Memory.mem_writeList (l : List α) : ∀ {m : Memory α} {off : Nat} {e : Nat × α},
    e ∈ Memory.writeList m off l → (off ≤ e.1 ∧ e.1 < off + l.length ∧ e.2 ∈ l) ∨ e ∈ m := by
  induction l with
  | nil => intro m off e h; exact .inr h
  | cons v vs ih =>
    intro m off e h
    rcases ih h with ⟨h1, h2, h3⟩ | h
    · refine .inl ⟨by omega, by simp only [List.length_cons]; omega, List.mem_cons_of_mem _ h3⟩
    · rcases Memory.mem_write h with rfl | h
      · exact .inl ⟨Nat.le_refl _, by simp, by simp⟩
      · exact .inr h

/-- A row of reads succeeds iff every offset holds a value, and it hands the values out in order. -/
theorem Memory.readList_eq_some (m : Memory α) : ∀ (n off : Nat) (l : List α),
    Memory.readList m off n = some l ↔ l.length = n ∧ ∀ j < n, Memory.read m (off + j) = l[j]? := by
  intro n
  induction n with
  | zero => intro off l; simp [Memory.readList, eq_comm]
  | succ n ih =>
    intro off l
    cases l with
    | nil =>
      simp only [Memory.readList, List.length_nil]
      constructor
      · intro h; split at h <;> simp at h
      · rintro ⟨h, -⟩; omega
    | cons v vs =>
      have key : (∀ j < n + 1, Memory.read m (off + j) = (v :: vs)[j]?) ↔
          Memory.read m off = some v ∧ ∀ j < n, Memory.read m (off + 1 + j) = vs[j]? := by
        constructor
        · intro h
          refine ⟨by simpa using h 0 (by omega), fun j hj => ?_⟩
          have := h (j + 1) (by omega)
          rw [show off + 1 + j = off + (j + 1) by omega, this]; simp
        · rintro ⟨h0, h⟩ j hj
          cases j with
          | zero => simpa using h0
          | succ j => rw [show off + (j + 1) = off + 1 + j by omega, h j (by omega)]; simp
      rw [key]
      simp only [Memory.readList, List.length_cons, Nat.add_right_cancel_iff]
      constructor
      · intro h
        split at h
        · next x xs h1 h2 =>
          simp only [Option.some.injEq, List.cons.injEq] at h
          obtain ⟨rfl, rfl⟩ := h
          have := (ih (off + 1) xs).1 h2
          exact ⟨this.1, h1, this.2⟩
        · simp at h
      · rintro ⟨hl, h0, h⟩
        rw [h0, (ih (off + 1) vs).2 ⟨hl, h⟩]

end Sys2Proof.Machine
end

