-- ==== Sys2Proof/Laws/State.lean ====
section
/-! SUPPORT. One lemma per field per state update, true by rfl, so that no proof unfolds an update. -/

namespace Sys2Proof.Machine

variable (s : State)

/-! ### State.emit -/

@[simp] theorem State.emit_cfg (e : Event) : (s.emit e).cfg = s.cfg := rfl
@[simp] theorem State.emit_pins (e : Event) : (s.emit e).pins = s.pins := rfl
@[simp] theorem State.emit_hwStarted (e : Event) : (s.emit e).hwStarted = s.hwStarted := rfl
@[simp] theorem State.emit_hwInTxn (e : Event) : (s.emit e).hwInTxn = s.hwInTxn := rfl
@[simp] theorem State.emit_chipId (e : Event) : (s.emit e).chipId = s.chipId := rfl
@[simp] theorem State.emit_idOk (e : Event) : (s.emit e).idOk = s.idOk := rfl
@[simp] theorem State.emit_trim (e : Event) : (s.emit e).trim = s.trim := rfl
@[simp] theorem State.emit_stage (e : Event) : (s.emit e).stage = s.stage := rfl
@[simp] theorem State.emit_raw (e : Event) : (s.emit e).raw = s.raw := rfl
@[simp] theorem State.emit_phase (e : Event) : (s.emit e).phase = s.phase := rfl
@[simp] theorem State.emit_fault (e : Event) : (s.emit e).fault = s.fault := rfl
@[simp] theorem State.emit_refused (e : Event) : (s.emit e).refused = s.refused := rfl
@[simp] theorem State.emit_ev (e : Event) : (s.emit e).ev = s.ev ++ [e] := rfl
@[simp] theorem State.emit_work (e : Event) : (s.emit e).work = s.work := rfl
@[simp] theorem State.emit_results (e : Event) : (s.emit e).results = s.results := rfl
@[simp] theorem State.emit_pending (e : Event) : (s.emit e).pending = s.pending := rfl
@[simp] theorem State.emit_slaveBits (e : Event) : (s.emit e).slaveBits = s.slaveBits := rfl
@[simp] theorem State.emit_slaveBytes (e : Event) : (s.emit e).slaveBytes = s.slaveBytes := rfl
@[simp] theorem State.emit_answers (e : Event) : (s.emit e).answers = s.answers := rfl

/-! ### State.drive -/

@[simp] theorem State.drive_cfg (l : OutLine) (v : Bool) : (s.drive l v).cfg = s.cfg := rfl
@[simp] theorem State.drive_pins (l : OutLine) (v : Bool) : (s.drive l v).pins = s.pins.setLat v l := rfl
@[simp] theorem State.drive_hwStarted (l : OutLine) (v : Bool) : (s.drive l v).hwStarted = s.hwStarted := rfl
@[simp] theorem State.drive_hwInTxn (l : OutLine) (v : Bool) : (s.drive l v).hwInTxn = s.hwInTxn := rfl
@[simp] theorem State.drive_chipId (l : OutLine) (v : Bool) : (s.drive l v).chipId = s.chipId := rfl
@[simp] theorem State.drive_idOk (l : OutLine) (v : Bool) : (s.drive l v).idOk = s.idOk := rfl
@[simp] theorem State.drive_trim (l : OutLine) (v : Bool) : (s.drive l v).trim = s.trim := rfl
@[simp] theorem State.drive_stage (l : OutLine) (v : Bool) : (s.drive l v).stage = s.stage := rfl
@[simp] theorem State.drive_raw (l : OutLine) (v : Bool) : (s.drive l v).raw = s.raw := rfl
@[simp] theorem State.drive_phase (l : OutLine) (v : Bool) : (s.drive l v).phase = s.phase := rfl
@[simp] theorem State.drive_fault (l : OutLine) (v : Bool) : (s.drive l v).fault = s.fault := rfl
@[simp] theorem State.drive_refused (l : OutLine) (v : Bool) : (s.drive l v).refused = s.refused := rfl
@[simp] theorem State.drive_ev (l : OutLine) (v : Bool) : (s.drive l v).ev = s.ev ++ [.drive (pinOf s.cfg l.line) v] := rfl
@[simp] theorem State.drive_work (l : OutLine) (v : Bool) : (s.drive l v).work = s.work := rfl
@[simp] theorem State.drive_results (l : OutLine) (v : Bool) : (s.drive l v).results = s.results := rfl
@[simp] theorem State.drive_pending (l : OutLine) (v : Bool) : (s.drive l v).pending = s.pending := rfl
@[simp] theorem State.drive_slaveBits (l : OutLine) (v : Bool) : (s.drive l v).slaveBits = s.slaveBits := rfl
@[simp] theorem State.drive_slaveBytes (l : OutLine) (v : Bool) : (s.drive l v).slaveBytes = s.slaveBytes := rfl
@[simp] theorem State.drive_answers (l : OutLine) (v : Bool) : (s.drive l v).answers = s.answers := rfl

/-! ### State.setDirection -/

@[simp] theorem State.setDirection_cfg (l : Line) (d : PinDir) : (s.setDirection l d).cfg = s.cfg := rfl
@[simp] theorem State.setDirection_pins (l : Line) (d : PinDir) : (s.setDirection l d).pins = s.pins.setDir d l := rfl
@[simp] theorem State.setDirection_hwStarted (l : Line) (d : PinDir) : (s.setDirection l d).hwStarted = s.hwStarted := rfl
@[simp] theorem State.setDirection_hwInTxn (l : Line) (d : PinDir) : (s.setDirection l d).hwInTxn = s.hwInTxn := rfl
@[simp] theorem State.setDirection_chipId (l : Line) (d : PinDir) : (s.setDirection l d).chipId = s.chipId := rfl
@[simp] theorem State.setDirection_idOk (l : Line) (d : PinDir) : (s.setDirection l d).idOk = s.idOk := rfl
@[simp] theorem State.setDirection_trim (l : Line) (d : PinDir) : (s.setDirection l d).trim = s.trim := rfl
@[simp] theorem State.setDirection_stage (l : Line) (d : PinDir) : (s.setDirection l d).stage = s.stage := rfl
@[simp] theorem State.setDirection_raw (l : Line) (d : PinDir) : (s.setDirection l d).raw = s.raw := rfl
@[simp] theorem State.setDirection_phase (l : Line) (d : PinDir) : (s.setDirection l d).phase = s.phase := rfl
@[simp] theorem State.setDirection_fault (l : Line) (d : PinDir) : (s.setDirection l d).fault = s.fault := rfl
@[simp] theorem State.setDirection_refused (l : Line) (d : PinDir) : (s.setDirection l d).refused = s.refused := rfl
@[simp] theorem State.setDirection_ev (l : Line) (d : PinDir) : (s.setDirection l d).ev = s.ev ++ [.dir (pinOf s.cfg l) d] := rfl
@[simp] theorem State.setDirection_work (l : Line) (d : PinDir) : (s.setDirection l d).work = s.work := rfl
@[simp] theorem State.setDirection_results (l : Line) (d : PinDir) : (s.setDirection l d).results = s.results := rfl
@[simp] theorem State.setDirection_pending (l : Line) (d : PinDir) : (s.setDirection l d).pending = s.pending := rfl
@[simp] theorem State.setDirection_slaveBits (l : Line) (d : PinDir) : (s.setDirection l d).slaveBits = s.slaveBits := rfl
@[simp] theorem State.setDirection_slaveBytes (l : Line) (d : PinDir) : (s.setDirection l d).slaveBytes = s.slaveBytes := rfl
@[simp] theorem State.setDirection_answers (l : Line) (d : PinDir) : (s.setDirection l d).answers = s.answers := rfl

/-! ### State.sample -/

@[simp] theorem State.sample_cfg : (s.sample).cfg = s.cfg := rfl
@[simp] theorem State.sample_pins : (s.sample).pins = s.pins := rfl
@[simp] theorem State.sample_hwStarted : (s.sample).hwStarted = s.hwStarted := rfl
@[simp] theorem State.sample_hwInTxn : (s.sample).hwInTxn = s.hwInTxn := rfl
@[simp] theorem State.sample_chipId : (s.sample).chipId = s.chipId := rfl
@[simp] theorem State.sample_idOk : (s.sample).idOk = s.idOk := rfl
@[simp] theorem State.sample_trim : (s.sample).trim = s.trim := rfl
@[simp] theorem State.sample_stage : (s.sample).stage = s.stage := rfl
@[simp] theorem State.sample_raw : (s.sample).raw = s.raw := rfl
@[simp] theorem State.sample_phase : (s.sample).phase = s.phase := rfl
@[simp] theorem State.sample_fault : (s.sample).fault = s.fault := rfl
@[simp] theorem State.sample_refused : (s.sample).refused = s.refused := rfl
@[simp] theorem State.sample_ev : (s.sample).ev = s.ev ++ [.sample s.cfg.misoPin s.sampled] := rfl
@[simp] theorem State.sample_work : (s.sample).work = s.work := rfl
@[simp] theorem State.sample_results : (s.sample).results = s.results := rfl
@[simp] theorem State.sample_pending : (s.sample).pending = s.pending := rfl
@[simp] theorem State.sample_slaveBits : (s.sample).slaveBits = s.slaveBits.drop 1 := rfl
@[simp] theorem State.sample_slaveBytes : (s.sample).slaveBytes = s.slaveBytes := rfl
@[simp] theorem State.sample_answers : (s.sample).answers = s.answers + 1 := rfl

/-! ### State.startHw -/

@[simp] theorem State.startHw_cfg : (s.startHw).cfg = s.cfg := rfl
@[simp] theorem State.startHw_pins : (s.startHw).pins = s.pins := rfl
@[simp] theorem State.startHw_hwStarted : (s.startHw).hwStarted = true := rfl
@[simp] theorem State.startHw_hwInTxn : (s.startHw).hwInTxn = s.hwInTxn := rfl
@[simp] theorem State.startHw_chipId : (s.startHw).chipId = s.chipId := rfl
@[simp] theorem State.startHw_idOk : (s.startHw).idOk = s.idOk := rfl
@[simp] theorem State.startHw_trim : (s.startHw).trim = s.trim := rfl
@[simp] theorem State.startHw_stage : (s.startHw).stage = s.stage := rfl
@[simp] theorem State.startHw_raw : (s.startHw).raw = s.raw := rfl
@[simp] theorem State.startHw_phase : (s.startHw).phase = s.phase := rfl
@[simp] theorem State.startHw_fault : (s.startHw).fault = s.fault := rfl
@[simp] theorem State.startHw_refused : (s.startHw).refused = s.refused := rfl
@[simp] theorem State.startHw_ev : (s.startHw).ev = s.ev ++ [.hwStart] := rfl
@[simp] theorem State.startHw_work : (s.startHw).work = s.work := rfl
@[simp] theorem State.startHw_results : (s.startHw).results = s.results := rfl
@[simp] theorem State.startHw_pending : (s.startHw).pending = s.pending := rfl
@[simp] theorem State.startHw_slaveBits : (s.startHw).slaveBits = s.slaveBits := rfl
@[simp] theorem State.startHw_slaveBytes : (s.startHw).slaveBytes = s.slaveBytes := rfl
@[simp] theorem State.startHw_answers : (s.startHw).answers = s.answers := rfl

/-! ### State.beginHw -/

@[simp] theorem State.beginHw_cfg (f : Nat) (o : BitOrder) (m : SpiMode) : (s.beginHw f o m).cfg = s.cfg := rfl
@[simp] theorem State.beginHw_pins (f : Nat) (o : BitOrder) (m : SpiMode) : (s.beginHw f o m).pins = s.pins := rfl
@[simp] theorem State.beginHw_hwStarted (f : Nat) (o : BitOrder) (m : SpiMode) : (s.beginHw f o m).hwStarted = s.hwStarted := rfl
@[simp] theorem State.beginHw_hwInTxn (f : Nat) (o : BitOrder) (m : SpiMode) : (s.beginHw f o m).hwInTxn = true := rfl
@[simp] theorem State.beginHw_chipId (f : Nat) (o : BitOrder) (m : SpiMode) : (s.beginHw f o m).chipId = s.chipId := rfl
@[simp] theorem State.beginHw_idOk (f : Nat) (o : BitOrder) (m : SpiMode) : (s.beginHw f o m).idOk = s.idOk := rfl
@[simp] theorem State.beginHw_trim (f : Nat) (o : BitOrder) (m : SpiMode) : (s.beginHw f o m).trim = s.trim := rfl
@[simp] theorem State.beginHw_stage (f : Nat) (o : BitOrder) (m : SpiMode) : (s.beginHw f o m).stage = s.stage := rfl
@[simp] theorem State.beginHw_raw (f : Nat) (o : BitOrder) (m : SpiMode) : (s.beginHw f o m).raw = s.raw := rfl
@[simp] theorem State.beginHw_phase (f : Nat) (o : BitOrder) (m : SpiMode) : (s.beginHw f o m).phase = s.phase := rfl
@[simp] theorem State.beginHw_fault (f : Nat) (o : BitOrder) (m : SpiMode) : (s.beginHw f o m).fault = s.fault := rfl
@[simp] theorem State.beginHw_refused (f : Nat) (o : BitOrder) (m : SpiMode) : (s.beginHw f o m).refused = s.refused := rfl
@[simp] theorem State.beginHw_ev (f : Nat) (o : BitOrder) (m : SpiMode) : (s.beginHw f o m).ev = s.ev ++ [.hwBegin f o m] := rfl
@[simp] theorem State.beginHw_work (f : Nat) (o : BitOrder) (m : SpiMode) : (s.beginHw f o m).work = s.work := rfl
@[simp] theorem State.beginHw_results (f : Nat) (o : BitOrder) (m : SpiMode) : (s.beginHw f o m).results = s.results := rfl
@[simp] theorem State.beginHw_pending (f : Nat) (o : BitOrder) (m : SpiMode) : (s.beginHw f o m).pending = s.pending := rfl
@[simp] theorem State.beginHw_slaveBits (f : Nat) (o : BitOrder) (m : SpiMode) : (s.beginHw f o m).slaveBits = s.slaveBits := rfl
@[simp] theorem State.beginHw_slaveBytes (f : Nat) (o : BitOrder) (m : SpiMode) : (s.beginHw f o m).slaveBytes = s.slaveBytes := rfl
@[simp] theorem State.beginHw_answers (f : Nat) (o : BitOrder) (m : SpiMode) : (s.beginHw f o m).answers = s.answers := rfl

/-! ### State.xferHw -/

@[simp] theorem State.xferHw_cfg (b : Byte) : (s.xferHw b).cfg = s.cfg := rfl
@[simp] theorem State.xferHw_pins (b : Byte) : (s.xferHw b).pins = s.pins := rfl
@[simp] theorem State.xferHw_hwStarted (b : Byte) : (s.xferHw b).hwStarted = s.hwStarted := rfl
@[simp] theorem State.xferHw_hwInTxn (b : Byte) : (s.xferHw b).hwInTxn = s.hwInTxn := rfl
@[simp] theorem State.xferHw_chipId (b : Byte) : (s.xferHw b).chipId = s.chipId := rfl
@[simp] theorem State.xferHw_idOk (b : Byte) : (s.xferHw b).idOk = s.idOk := rfl
@[simp] theorem State.xferHw_trim (b : Byte) : (s.xferHw b).trim = s.trim := rfl
@[simp] theorem State.xferHw_stage (b : Byte) : (s.xferHw b).stage = s.stage := rfl
@[simp] theorem State.xferHw_raw (b : Byte) : (s.xferHw b).raw = s.raw := rfl
@[simp] theorem State.xferHw_phase (b : Byte) : (s.xferHw b).phase = s.phase := rfl
@[simp] theorem State.xferHw_fault (b : Byte) : (s.xferHw b).fault = s.fault := rfl
@[simp] theorem State.xferHw_refused (b : Byte) : (s.xferHw b).refused = s.refused := rfl
@[simp] theorem State.xferHw_ev (b : Byte) : (s.xferHw b).ev = s.ev ++ [.hwXfer b s.received] := rfl
@[simp] theorem State.xferHw_work (b : Byte) : (s.xferHw b).work = s.work := rfl
@[simp] theorem State.xferHw_results (b : Byte) : (s.xferHw b).results = s.results := rfl
@[simp] theorem State.xferHw_pending (b : Byte) : (s.xferHw b).pending = s.pending := rfl
@[simp] theorem State.xferHw_slaveBits (b : Byte) : (s.xferHw b).slaveBits = s.slaveBits := rfl
@[simp] theorem State.xferHw_slaveBytes (b : Byte) : (s.xferHw b).slaveBytes = s.slaveBytes.drop 1 := rfl
@[simp] theorem State.xferHw_answers (b : Byte) : (s.xferHw b).answers = s.answers + 1 := rfl

/-! ### State.endHw -/

@[simp] theorem State.endHw_cfg : (s.endHw).cfg = s.cfg := rfl
@[simp] theorem State.endHw_pins : (s.endHw).pins = s.pins := rfl
@[simp] theorem State.endHw_hwStarted : (s.endHw).hwStarted = s.hwStarted := rfl
@[simp] theorem State.endHw_hwInTxn : (s.endHw).hwInTxn = false := rfl
@[simp] theorem State.endHw_chipId : (s.endHw).chipId = s.chipId := rfl
@[simp] theorem State.endHw_idOk : (s.endHw).idOk = s.idOk := rfl
@[simp] theorem State.endHw_trim : (s.endHw).trim = s.trim := rfl
@[simp] theorem State.endHw_stage : (s.endHw).stage = s.stage := rfl
@[simp] theorem State.endHw_raw : (s.endHw).raw = s.raw := rfl
@[simp] theorem State.endHw_phase : (s.endHw).phase = s.phase := rfl
@[simp] theorem State.endHw_fault : (s.endHw).fault = s.fault := rfl
@[simp] theorem State.endHw_refused : (s.endHw).refused = s.refused := rfl
@[simp] theorem State.endHw_ev : (s.endHw).ev = s.ev ++ [.hwEnd] := rfl
@[simp] theorem State.endHw_work : (s.endHw).work = s.work := rfl
@[simp] theorem State.endHw_results : (s.endHw).results = s.results := rfl
@[simp] theorem State.endHw_pending : (s.endHw).pending = s.pending := rfl
@[simp] theorem State.endHw_slaveBits : (s.endHw).slaveBits = s.slaveBits := rfl
@[simp] theorem State.endHw_slaveBytes : (s.endHw).slaveBytes = s.slaveBytes := rfl
@[simp] theorem State.endHw_answers : (s.endHw).answers = s.answers := rfl

/-! ### State.setTx -/

@[simp] theorem State.setTx_cfg (v : Byte) : (s.setTx v).cfg = s.cfg := rfl
@[simp] theorem State.setTx_pins (v : Byte) : (s.setTx v).pins = s.pins := rfl
@[simp] theorem State.setTx_hwStarted (v : Byte) : (s.setTx v).hwStarted = s.hwStarted := rfl
@[simp] theorem State.setTx_hwInTxn (v : Byte) : (s.setTx v).hwInTxn = s.hwInTxn := rfl
@[simp] theorem State.setTx_chipId (v : Byte) : (s.setTx v).chipId = s.chipId := rfl
@[simp] theorem State.setTx_idOk (v : Byte) : (s.setTx v).idOk = s.idOk := rfl
@[simp] theorem State.setTx_trim (v : Byte) : (s.setTx v).trim = s.trim := rfl
@[simp] theorem State.setTx_stage (v : Byte) : (s.setTx v).stage = s.stage := rfl
@[simp] theorem State.setTx_raw (v : Byte) : (s.setTx v).raw = s.raw := rfl
@[simp] theorem State.setTx_phase (v : Byte) : (s.setTx v).phase = s.phase := rfl
@[simp] theorem State.setTx_fault (v : Byte) : (s.setTx v).fault = s.fault := rfl
@[simp] theorem State.setTx_refused (v : Byte) : (s.setTx v).refused = s.refused := rfl
@[simp] theorem State.setTx_ev (v : Byte) : (s.setTx v).ev = s.ev := rfl
@[simp] theorem State.setTx_work (v : Byte) : (s.setTx v).work = { s.work with tx := some v } := rfl
@[simp] theorem State.setTx_results (v : Byte) : (s.setTx v).results = s.results := rfl
@[simp] theorem State.setTx_pending (v : Byte) : (s.setTx v).pending = s.pending := rfl
@[simp] theorem State.setTx_slaveBits (v : Byte) : (s.setTx v).slaveBits = s.slaveBits := rfl
@[simp] theorem State.setTx_slaveBytes (v : Byte) : (s.setTx v).slaveBytes = s.slaveBytes := rfl
@[simp] theorem State.setTx_answers (v : Byte) : (s.setTx v).answers = s.answers := rfl

/-! ### State.setRxacc -/

@[simp] theorem State.setRxacc_cfg (v : Byte) : (s.setRxacc v).cfg = s.cfg := rfl
@[simp] theorem State.setRxacc_pins (v : Byte) : (s.setRxacc v).pins = s.pins := rfl
@[simp] theorem State.setRxacc_hwStarted (v : Byte) : (s.setRxacc v).hwStarted = s.hwStarted := rfl
@[simp] theorem State.setRxacc_hwInTxn (v : Byte) : (s.setRxacc v).hwInTxn = s.hwInTxn := rfl
@[simp] theorem State.setRxacc_chipId (v : Byte) : (s.setRxacc v).chipId = s.chipId := rfl
@[simp] theorem State.setRxacc_idOk (v : Byte) : (s.setRxacc v).idOk = s.idOk := rfl
@[simp] theorem State.setRxacc_trim (v : Byte) : (s.setRxacc v).trim = s.trim := rfl
@[simp] theorem State.setRxacc_stage (v : Byte) : (s.setRxacc v).stage = s.stage := rfl
@[simp] theorem State.setRxacc_raw (v : Byte) : (s.setRxacc v).raw = s.raw := rfl
@[simp] theorem State.setRxacc_phase (v : Byte) : (s.setRxacc v).phase = s.phase := rfl
@[simp] theorem State.setRxacc_fault (v : Byte) : (s.setRxacc v).fault = s.fault := rfl
@[simp] theorem State.setRxacc_refused (v : Byte) : (s.setRxacc v).refused = s.refused := rfl
@[simp] theorem State.setRxacc_ev (v : Byte) : (s.setRxacc v).ev = s.ev := rfl
@[simp] theorem State.setRxacc_work (v : Byte) : (s.setRxacc v).work = { s.work with rxacc := some v } := rfl
@[simp] theorem State.setRxacc_results (v : Byte) : (s.setRxacc v).results = s.results := rfl
@[simp] theorem State.setRxacc_pending (v : Byte) : (s.setRxacc v).pending = s.pending := rfl
@[simp] theorem State.setRxacc_slaveBits (v : Byte) : (s.setRxacc v).slaveBits = s.slaveBits := rfl
@[simp] theorem State.setRxacc_slaveBytes (v : Byte) : (s.setRxacc v).slaveBytes = s.slaveBytes := rfl
@[simp] theorem State.setRxacc_answers (v : Byte) : (s.setRxacc v).answers = s.answers := rfl

/-! ### State.setBit -/

@[simp] theorem State.setBit_cfg (v : Nat) : (s.setBit v).cfg = s.cfg := rfl
@[simp] theorem State.setBit_pins (v : Nat) : (s.setBit v).pins = s.pins := rfl
@[simp] theorem State.setBit_hwStarted (v : Nat) : (s.setBit v).hwStarted = s.hwStarted := rfl
@[simp] theorem State.setBit_hwInTxn (v : Nat) : (s.setBit v).hwInTxn = s.hwInTxn := rfl
@[simp] theorem State.setBit_chipId (v : Nat) : (s.setBit v).chipId = s.chipId := rfl
@[simp] theorem State.setBit_idOk (v : Nat) : (s.setBit v).idOk = s.idOk := rfl
@[simp] theorem State.setBit_trim (v : Nat) : (s.setBit v).trim = s.trim := rfl
@[simp] theorem State.setBit_stage (v : Nat) : (s.setBit v).stage = s.stage := rfl
@[simp] theorem State.setBit_raw (v : Nat) : (s.setBit v).raw = s.raw := rfl
@[simp] theorem State.setBit_phase (v : Nat) : (s.setBit v).phase = s.phase := rfl
@[simp] theorem State.setBit_fault (v : Nat) : (s.setBit v).fault = s.fault := rfl
@[simp] theorem State.setBit_refused (v : Nat) : (s.setBit v).refused = s.refused := rfl
@[simp] theorem State.setBit_ev (v : Nat) : (s.setBit v).ev = s.ev := rfl
@[simp] theorem State.setBit_work (v : Nat) : (s.setBit v).work = { s.work with bit := some v } := rfl
@[simp] theorem State.setBit_results (v : Nat) : (s.setBit v).results = s.results := rfl
@[simp] theorem State.setBit_pending (v : Nat) : (s.setBit v).pending = s.pending := rfl
@[simp] theorem State.setBit_slaveBits (v : Nat) : (s.setBit v).slaveBits = s.slaveBits := rfl
@[simp] theorem State.setBit_slaveBytes (v : Nat) : (s.setBit v).slaveBytes = s.slaveBytes := rfl
@[simp] theorem State.setBit_answers (v : Nat) : (s.setBit v).answers = s.answers := rfl

/-! ### State.setHdr -/

@[simp] theorem State.setHdr_cfg (v : Byte) : (s.setHdr v).cfg = s.cfg := rfl
@[simp] theorem State.setHdr_pins (v : Byte) : (s.setHdr v).pins = s.pins := rfl
@[simp] theorem State.setHdr_hwStarted (v : Byte) : (s.setHdr v).hwStarted = s.hwStarted := rfl
@[simp] theorem State.setHdr_hwInTxn (v : Byte) : (s.setHdr v).hwInTxn = s.hwInTxn := rfl
@[simp] theorem State.setHdr_chipId (v : Byte) : (s.setHdr v).chipId = s.chipId := rfl
@[simp] theorem State.setHdr_idOk (v : Byte) : (s.setHdr v).idOk = s.idOk := rfl
@[simp] theorem State.setHdr_trim (v : Byte) : (s.setHdr v).trim = s.trim := rfl
@[simp] theorem State.setHdr_stage (v : Byte) : (s.setHdr v).stage = s.stage := rfl
@[simp] theorem State.setHdr_raw (v : Byte) : (s.setHdr v).raw = s.raw := rfl
@[simp] theorem State.setHdr_phase (v : Byte) : (s.setHdr v).phase = s.phase := rfl
@[simp] theorem State.setHdr_fault (v : Byte) : (s.setHdr v).fault = s.fault := rfl
@[simp] theorem State.setHdr_refused (v : Byte) : (s.setHdr v).refused = s.refused := rfl
@[simp] theorem State.setHdr_ev (v : Byte) : (s.setHdr v).ev = s.ev := rfl
@[simp] theorem State.setHdr_work (v : Byte) : (s.setHdr v).work = { s.work with hdr := some v } := rfl
@[simp] theorem State.setHdr_results (v : Byte) : (s.setHdr v).results = s.results := rfl
@[simp] theorem State.setHdr_pending (v : Byte) : (s.setHdr v).pending = s.pending := rfl
@[simp] theorem State.setHdr_slaveBits (v : Byte) : (s.setHdr v).slaveBits = s.slaveBits := rfl
@[simp] theorem State.setHdr_slaveBytes (v : Byte) : (s.setHdr v).slaveBytes = s.slaveBytes := rfl
@[simp] theorem State.setHdr_answers (v : Byte) : (s.setHdr v).answers = s.answers := rfl

/-! ### State.setK -/

@[simp] theorem State.setK_cfg (v : Nat) : (s.setK v).cfg = s.cfg := rfl
@[simp] theorem State.setK_pins (v : Nat) : (s.setK v).pins = s.pins := rfl
@[simp] theorem State.setK_hwStarted (v : Nat) : (s.setK v).hwStarted = s.hwStarted := rfl
@[simp] theorem State.setK_hwInTxn (v : Nat) : (s.setK v).hwInTxn = s.hwInTxn := rfl
@[simp] theorem State.setK_chipId (v : Nat) : (s.setK v).chipId = s.chipId := rfl
@[simp] theorem State.setK_idOk (v : Nat) : (s.setK v).idOk = s.idOk := rfl
@[simp] theorem State.setK_trim (v : Nat) : (s.setK v).trim = s.trim := rfl
@[simp] theorem State.setK_stage (v : Nat) : (s.setK v).stage = s.stage := rfl
@[simp] theorem State.setK_raw (v : Nat) : (s.setK v).raw = s.raw := rfl
@[simp] theorem State.setK_phase (v : Nat) : (s.setK v).phase = s.phase := rfl
@[simp] theorem State.setK_fault (v : Nat) : (s.setK v).fault = s.fault := rfl
@[simp] theorem State.setK_refused (v : Nat) : (s.setK v).refused = s.refused := rfl
@[simp] theorem State.setK_ev (v : Nat) : (s.setK v).ev = s.ev := rfl
@[simp] theorem State.setK_work (v : Nat) : (s.setK v).work = { s.work with k := some v } := rfl
@[simp] theorem State.setK_results (v : Nat) : (s.setK v).results = s.results := rfl
@[simp] theorem State.setK_pending (v : Nat) : (s.setK v).pending = s.pending := rfl
@[simp] theorem State.setK_slaveBits (v : Nat) : (s.setK v).slaveBits = s.slaveBits := rfl
@[simp] theorem State.setK_slaveBytes (v : Nat) : (s.setK v).slaveBytes = s.slaveBytes := rfl
@[simp] theorem State.setK_answers (v : Nat) : (s.setK v).answers = s.answers := rfl

/-! ### State.setOff -/

@[simp] theorem State.setOff_cfg (v : Nat) : (s.setOff v).cfg = s.cfg := rfl
@[simp] theorem State.setOff_pins (v : Nat) : (s.setOff v).pins = s.pins := rfl
@[simp] theorem State.setOff_hwStarted (v : Nat) : (s.setOff v).hwStarted = s.hwStarted := rfl
@[simp] theorem State.setOff_hwInTxn (v : Nat) : (s.setOff v).hwInTxn = s.hwInTxn := rfl
@[simp] theorem State.setOff_chipId (v : Nat) : (s.setOff v).chipId = s.chipId := rfl
@[simp] theorem State.setOff_idOk (v : Nat) : (s.setOff v).idOk = s.idOk := rfl
@[simp] theorem State.setOff_trim (v : Nat) : (s.setOff v).trim = s.trim := rfl
@[simp] theorem State.setOff_stage (v : Nat) : (s.setOff v).stage = s.stage := rfl
@[simp] theorem State.setOff_raw (v : Nat) : (s.setOff v).raw = s.raw := rfl
@[simp] theorem State.setOff_phase (v : Nat) : (s.setOff v).phase = s.phase := rfl
@[simp] theorem State.setOff_fault (v : Nat) : (s.setOff v).fault = s.fault := rfl
@[simp] theorem State.setOff_refused (v : Nat) : (s.setOff v).refused = s.refused := rfl
@[simp] theorem State.setOff_ev (v : Nat) : (s.setOff v).ev = s.ev := rfl
@[simp] theorem State.setOff_work (v : Nat) : (s.setOff v).work = { s.work with off := some v } := rfl
@[simp] theorem State.setOff_results (v : Nat) : (s.setOff v).results = s.results := rfl
@[simp] theorem State.setOff_pending (v : Nat) : (s.setOff v).pending = s.pending := rfl
@[simp] theorem State.setOff_slaveBits (v : Nat) : (s.setOff v).slaveBits = s.slaveBits := rfl
@[simp] theorem State.setOff_slaveBytes (v : Nat) : (s.setOff v).slaveBytes = s.slaveBytes := rfl
@[simp] theorem State.setOff_answers (v : Nat) : (s.setOff v).answers = s.answers := rfl

/-! ### State.raise -/

@[simp] theorem State.raise_cfg (r : FaultReason) (w : Option Cmd) : (s.raise r w).cfg = s.cfg := rfl
@[simp] theorem State.raise_pins (r : FaultReason) (w : Option Cmd) : (s.raise r w).pins = s.pins := rfl
@[simp] theorem State.raise_hwStarted (r : FaultReason) (w : Option Cmd) : (s.raise r w).hwStarted = s.hwStarted := rfl
@[simp] theorem State.raise_hwInTxn (r : FaultReason) (w : Option Cmd) : (s.raise r w).hwInTxn = s.hwInTxn := rfl
@[simp] theorem State.raise_chipId (r : FaultReason) (w : Option Cmd) : (s.raise r w).chipId = s.chipId := rfl
@[simp] theorem State.raise_idOk (r : FaultReason) (w : Option Cmd) : (s.raise r w).idOk = s.idOk := rfl
@[simp] theorem State.raise_trim (r : FaultReason) (w : Option Cmd) : (s.raise r w).trim = s.trim := rfl
@[simp] theorem State.raise_stage (r : FaultReason) (w : Option Cmd) : (s.raise r w).stage = s.stage := rfl
@[simp] theorem State.raise_raw (r : FaultReason) (w : Option Cmd) : (s.raise r w).raw = s.raw := rfl
@[simp] theorem State.raise_phase (r : FaultReason) (w : Option Cmd) : (s.raise r w).phase = s.phase := rfl
@[simp] theorem State.raise_fault (r : FaultReason) (w : Option Cmd) : (s.raise r w).fault = some { reason := r, word := w } := rfl
@[simp] theorem State.raise_refused (r : FaultReason) (w : Option Cmd) : (s.raise r w).refused = s.refused := rfl
@[simp] theorem State.raise_ev (r : FaultReason) (w : Option Cmd) : (s.raise r w).ev = s.ev := rfl
@[simp] theorem State.raise_work (r : FaultReason) (w : Option Cmd) : (s.raise r w).work = s.work := rfl
@[simp] theorem State.raise_results (r : FaultReason) (w : Option Cmd) : (s.raise r w).results = s.results := rfl
@[simp] theorem State.raise_pending (r : FaultReason) (w : Option Cmd) : (s.raise r w).pending = s.pending := rfl
@[simp] theorem State.raise_slaveBits (r : FaultReason) (w : Option Cmd) : (s.raise r w).slaveBits = s.slaveBits := rfl
@[simp] theorem State.raise_slaveBytes (r : FaultReason) (w : Option Cmd) : (s.raise r w).slaveBytes = s.slaveBytes := rfl
@[simp] theorem State.raise_answers (r : FaultReason) (w : Option Cmd) : (s.raise r w).answers = s.answers := rfl

/-! ### State.refuse -/

@[simp] theorem State.refuse_cfg (r : RefusalReason) : (s.refuse r).cfg = s.cfg := rfl
@[simp] theorem State.refuse_pins (r : RefusalReason) : (s.refuse r).pins = s.pins := rfl
@[simp] theorem State.refuse_hwStarted (r : RefusalReason) : (s.refuse r).hwStarted = s.hwStarted := rfl
@[simp] theorem State.refuse_hwInTxn (r : RefusalReason) : (s.refuse r).hwInTxn = s.hwInTxn := rfl
@[simp] theorem State.refuse_chipId (r : RefusalReason) : (s.refuse r).chipId = s.chipId := rfl
@[simp] theorem State.refuse_idOk (r : RefusalReason) : (s.refuse r).idOk = s.idOk := rfl
@[simp] theorem State.refuse_trim (r : RefusalReason) : (s.refuse r).trim = s.trim := rfl
@[simp] theorem State.refuse_stage (r : RefusalReason) : (s.refuse r).stage = s.stage := rfl
@[simp] theorem State.refuse_raw (r : RefusalReason) : (s.refuse r).raw = s.raw := rfl
@[simp] theorem State.refuse_phase (r : RefusalReason) : (s.refuse r).phase = s.phase := rfl
@[simp] theorem State.refuse_fault (r : RefusalReason) : (s.refuse r).fault = s.fault := rfl
@[simp] theorem State.refuse_refused (r : RefusalReason) : (s.refuse r).refused = some r := rfl
@[simp] theorem State.refuse_ev (r : RefusalReason) : (s.refuse r).ev = s.ev := rfl
@[simp] theorem State.refuse_work (r : RefusalReason) : (s.refuse r).work = s.work := rfl
@[simp] theorem State.refuse_results (r : RefusalReason) : (s.refuse r).results = s.results := rfl
@[simp] theorem State.refuse_pending (r : RefusalReason) : (s.refuse r).pending = s.pending := rfl
@[simp] theorem State.refuse_slaveBits (r : RefusalReason) : (s.refuse r).slaveBits = s.slaveBits := rfl
@[simp] theorem State.refuse_slaveBytes (r : RefusalReason) : (s.refuse r).slaveBytes = s.slaveBytes := rfl
@[simp] theorem State.refuse_answers (r : RefusalReason) : (s.refuse r).answers = s.answers := rfl

/-! ### State.complete -/

@[simp] theorem State.complete_cfg (r : Result) : (s.complete r).cfg = s.cfg := rfl
@[simp] theorem State.complete_pins (r : Result) : (s.complete r).pins = s.pins := rfl
@[simp] theorem State.complete_hwStarted (r : Result) : (s.complete r).hwStarted = s.hwStarted := rfl
@[simp] theorem State.complete_hwInTxn (r : Result) : (s.complete r).hwInTxn = s.hwInTxn := rfl
@[simp] theorem State.complete_chipId (r : Result) : (s.complete r).chipId = s.chipId := rfl
@[simp] theorem State.complete_idOk (r : Result) : (s.complete r).idOk = s.idOk := rfl
@[simp] theorem State.complete_trim (r : Result) : (s.complete r).trim = s.trim := rfl
@[simp] theorem State.complete_stage (r : Result) : (s.complete r).stage = s.stage := rfl
@[simp] theorem State.complete_raw (r : Result) : (s.complete r).raw = s.raw := rfl
@[simp] theorem State.complete_phase (r : Result) : (s.complete r).phase = s.phase := rfl
@[simp] theorem State.complete_fault (r : Result) : (s.complete r).fault = s.fault := rfl
@[simp] theorem State.complete_refused (r : Result) : (s.complete r).refused = s.refused := rfl
@[simp] theorem State.complete_ev (r : Result) : (s.complete r).ev = s.ev := rfl
@[simp] theorem State.complete_work (r : Result) : (s.complete r).work = WorkRegs.noValue := rfl
@[simp] theorem State.complete_results (r : Result) : (s.complete r).results = s.results ++ [r] := rfl
@[simp] theorem State.complete_pending (r : Result) : (s.complete r).pending = s.pending := rfl
@[simp] theorem State.complete_slaveBits (r : Result) : (s.complete r).slaveBits = s.slaveBits := rfl
@[simp] theorem State.complete_slaveBytes (r : Result) : (s.complete r).slaveBytes = s.slaveBytes := rfl
@[simp] theorem State.complete_answers (r : Result) : (s.complete r).answers = s.answers := rfl

/-! ### State.settle -/

@[simp] theorem State.settle_cfg : (s.settle).cfg = s.cfg := rfl
@[simp] theorem State.settle_pins : (s.settle).pins = s.pins := rfl
@[simp] theorem State.settle_hwStarted : (s.settle).hwStarted = s.hwStarted := rfl
@[simp] theorem State.settle_hwInTxn : (s.settle).hwInTxn = s.hwInTxn := rfl
@[simp] theorem State.settle_chipId : (s.settle).chipId = s.chipId := rfl
@[simp] theorem State.settle_idOk : (s.settle).idOk = s.idOk := rfl
@[simp] theorem State.settle_trim : (s.settle).trim = s.trim := rfl
@[simp] theorem State.settle_stage : (s.settle).stage = s.stage := rfl
@[simp] theorem State.settle_raw : (s.settle).raw = s.raw := rfl
@[simp] theorem State.settle_phase : (s.settle).phase = s.phase := rfl
@[simp] theorem State.settle_fault : (s.settle).fault = s.fault := rfl
@[simp] theorem State.settle_refused : (s.settle).refused = s.refused := rfl
@[simp] theorem State.settle_ev : (s.settle).ev = s.ev := rfl
@[simp] theorem State.settle_work : (s.settle).work = WorkRegs.noValue := rfl
@[simp] theorem State.settle_results : (s.settle).results = s.results := rfl
@[simp] theorem State.settle_pending : (s.settle).pending = s.pending := rfl
@[simp] theorem State.settle_slaveBits : (s.settle).slaveBits = s.slaveBits := rfl
@[simp] theorem State.settle_slaveBytes : (s.settle).slaveBytes = s.slaveBytes := rfl
@[simp] theorem State.settle_answers : (s.settle).answers = s.answers := rfl

/-! ### The working registers read back -/

@[simp] theorem State.setTx_read (v : Byte) : (s.setTx v).tx = v := rfl
@[simp] theorem State.setRxacc_read (v : Byte) : (s.setRxacc v).rxacc = v := rfl
@[simp] theorem State.setHdr_read (v : Byte) : (s.setHdr v).hdr = v := rfl
@[simp] theorem State.setOff_read (v : Nat) : (s.setOff v).off = v := rfl

/-! ### The transport is the configuration's -/

theorem State.transport_eq : s.transport = s.cfg.transport := rfl

/-! ### Construction -/

theorem State.construct_trim_wf (c : DeviceConfig) : Memory.wf (State.construct c).trim := List.Pairwise.nil
theorem State.construct_stage_wf (c : DeviceConfig) : Memory.wf (State.construct c).stage := List.Pairwise.nil
theorem State.construct_raw_wf (c : DeviceConfig) : Memory.wf (State.construct c).raw := List.Pairwise.nil

end Sys2Proof.Machine
end

