-- ==== Sys2Proof/Laws/Transport.lean ====
section
/-! SUPPORT. What the transports do, once: the closed form of a byte exchange, the answers after it, and PINCFG. -/

namespace Sys2Proof.Machine

/-! ### Bits and bytes -/

/-- The first bit lands in bit 7 (20_memory R67). -/
theorem packMsb_getLsbD (f : Nat → Bool) :
    (packMsb f).getLsbD 7 = f 0 ∧ (packMsb f).getLsbD 6 = f 1 ∧ (packMsb f).getLsbD 5 = f 2 ∧
    (packMsb f).getLsbD 4 = f 3 ∧ (packMsb f).getLsbD 3 = f 4 ∧ (packMsb f).getLsbD 2 = f 5 ∧
    (packMsb f).getLsbD 1 = f 6 ∧ (packMsb f).getLsbD 0 = f 7 := by
  simp only [packMsb]
  generalize f 0 = a, f 1 = b, f 2 = c, f 3 = d, f 4 = e, f 5 = g, f 6 = h, f 7 = i
  revert a b c d e g h i
  decide

/-- Accumulating eight samples by shifting them in (40_transport R121) packs them, the first in bit 7. -/
theorem shiftIn_eight (a b c d e g h i : Bool) :
    shiftIn (shiftIn (shiftIn (shiftIn (shiftIn (shiftIn (shiftIn (shiftIn 0x00#8 a) b) c) d) e) g) h) i =
      BitVec.ofBool a ++ BitVec.ofBool b ++ BitVec.ofBool c ++ BitVec.ofBool d ++
      BitVec.ofBool e ++ BitVec.ofBool g ++ BitVec.ofBool h ++ BitVec.ofBool i := by
  revert a b c d e g h i
  decide

/-! ### The answers -/

theorem State.answerBit_shift {s t : State} {n : Nat} (hb : t.slaveBits = s.slaveBits.drop n)
    (ha : t.answers = s.answers + n) (i : Nat) : t.answerBit i = s.answerBit (n + i) := by
  simp [State.answerBit, hb, ha, Nat.add_assoc]

theorem State.answerHwByte_shift {s t : State} {n : Nat} (hb : t.slaveBytes = s.slaveBytes.drop n)
    (ha : t.answers = s.answers + n) (i : Nat) : t.answerHwByte i = s.answerHwByte (n + i) := by
  simp [State.answerHwByte, hb, ha, Nat.add_assoc]

/-- The answers depend only on what the slave supplies, the count and the transport. -/
theorem State.answerByte_congr {s t : State} (hc : t.cfg = s.cfg) (hb : t.slaveBits = s.slaveBits)
    (hy : t.slaveBytes = s.slaveBytes) (ha : t.answers = s.answers) (j : Nat) : t.answerByte j = s.answerByte j := by
  simp [State.answerByte, State.transport, State.answerBit, State.answerHwByte, hc, hb, hy, ha]

/-! ### One bit of a software byte -/

/-- The state after one bit (40_transport R121). -/
theorem State.xferBit_eq (s : State) (i : Nat) : s.xferBit i =
    { s with
      pins := { s.pins with latSck := some true, latMosi := some (s.tx.getLsbD i) }
      ev := s.ev ++ [.drive s.cfg.sckPin false, .drive s.cfg.mosiPin (s.tx.getLsbD i), .drive s.cfg.sckPin true,
        .sample s.cfg.misoPin (s.answerBit 0)]
      work := { s.work with bit := some i, rxacc := some (shiftIn s.rxacc (s.answerBit 0)) }
      slaveBits := s.slaveBits.drop 1
      answers := s.answers + 1 } := by
  simp [State.xferBit, State.setBit, State.drive, State.sample, State.setRxacc, State.emit, State.sampled, Pins.setLat,
    OutLine.line, pinOf, State.tx, State.rxacc, State.answerBit]

@[simp] theorem State.xferBit_tx (s : State) (i : Nat) : (s.xferBit i).tx = s.tx := by rw [State.xferBit_eq]; rfl

/-- The byte a software exchange returns: the eight samples, the first in bit 7 (40_transport R121). -/
theorem State.xferSw_rxacc (t : Byte) (s : State) : (s.xferSw t).rxacc = packMsb s.answerBit := by
  simp only [State.xferSw, State.xferBits, State.xferBit_eq, State.rxacc, State.setTx, State.setRxacc, State.tx,
    State.answerBit, Option.getD_some]
  rw [shiftIn_eight]
  simp [packMsb, State.answerBit]

/-- The state after a software byte (40_transport R121). -/
theorem State.xferSw_eq (t : Byte) (s : State) (hsw : s.cfg.transport = .sw) : s.xferSw t =
    { s with
      pins := { s.pins with latSck := some true, latMosi := some (t.getLsbD 0) }
      ev := s.ev ++ byteEvents s.cfg (t, packMsb s.answerBit)
      work := { s.work with tx := some t, bit := some 0, rxacc := some (packMsb s.answerBit) }
      slaveBits := s.slaveBits.drop 8
      answers := s.answers + 8 } := by
  have hr := State.xferSw_rxacc t s
  obtain ⟨h7, h6, h5, h4, h3, h2, h1, h0⟩ := packMsb_getLsbD s.answerBit
  have hev : byteEvents s.cfg (t, packMsb s.answerBit) = [7, 6, 5, 4, 3, 2, 1, 0].flatMap fun i =>
      [.drive s.cfg.sckPin false, .drive s.cfg.mosiPin (t.getLsbD i), .drive s.cfg.sckPin true,
        .sample s.cfg.misoPin (s.answerBit (7 - i))] := by
    simp only [byteEvents, bitEvents, hsw, List.flatMap_cons, List.flatMap_nil, h7, h6, h5, h4, h3, h2, h1, h0]
  rw [hev]
  simp only [State.xferSw, State.xferBits, State.xferBit_eq, State.rxacc, State.setTx, State.setRxacc, State.tx,
    State.answerBit, Option.getD_some] at hr ⊢
  rw [hr]
  simp

/-! ### A byte exchange, both transports -/

/-- The byte XFERB returns is the slave's next answer. -/
theorem State.xferByte_eq (t : Byte) (s : State) : s.xferByte t = s.answerByte 0 := by
  unfold State.xferByte State.answerByte
  cases h : s.transport
  · rfl
  · simp [State.xferSw_rxacc]

/-- The working registers XFERB leaves. -/
def State.workAfter (t : Byte) (s : State) : WorkRegs :=
  match s.transport with
  | .sw => { s.work with tx := some t, bit := some 0, rxacc := some (s.answerByte 0) }
  | .hw => s.work

/-- XFERB, in closed form (40_transport R121, R126). -/
theorem State.xferB_eq (t : Byte) (s : State) : s.xferB t = { s.sent [t] with work := s.workAfter t } := by
  unfold State.xferB State.sent State.workAfter State.pinsAfter State.bitsFor State.bytesFor
  cases h : s.transport
  · simp [State.xferHw, State.emit, State.exchanges, State.answerByte, h, byteEvents, State.received,
      show s.cfg.transport = .hw from h]
  · have hp : s.answerByte 0 = packMsb s.answerBit := by
      simp [State.answerByte, h]
    simp [State.xferSw_eq t s h, State.exchanges, hp]

@[simp] theorem State.workAfter_off (t : Byte) (s : State) : (s.workAfter t).off = s.work.off := by
  unfold State.workAfter; split <;> rfl

@[simp] theorem State.workAfter_hdr (t : Byte) (s : State) : (s.workAfter t).hdr = s.work.hdr := by
  unfold State.workAfter; split <;> rfl

/-! ### Sending a list of bytes -/

@[simp] theorem State.sent_transport (ts : List Byte) (s : State) : (s.sent ts).transport = s.transport := rfl

/-- Sending bytes takes as many answers. -/
theorem State.sent_answerByte (ts : List Byte) (s : State) (j : Nat) :
    (s.sent ts).answerByte j = s.answerByte (ts.length + j) := by
  unfold State.answerByte
  rw [State.sent_transport]
  cases h : s.transport
  · exact State.answerHwByte_shift (n := ts.length) (by simp [State.sent, State.bytesFor, h])
      (by simp [State.sent, State.bitsFor, State.bytesFor, h]) j
  · simp only
    congr 1; funext i
    rw [State.answerBit_shift (s := s) (n := 8 * ts.length) (by simp [State.sent, State.bitsFor, h])
      (by simp [State.sent, State.bitsFor, State.bytesFor, h])]
    congr 1; omega

theorem State.exchanges_congr {s t : State} {k l : Nat} (h : ∀ j, t.answerByte (k + j) = s.answerByte (l + j))
    (ts : List Byte) : t.exchanges k ts = s.exchanges l ts := by
  induction ts generalizing k l with
  | nil => rfl
  | cons a as ih =>
    simp only [State.exchanges, List.cons.injEq, Prod.mk.injEq, true_and]
    refine ⟨by simpa using h 0, ih fun j => ?_⟩
    have := h (1 + j)
    rwa [← Nat.add_assoc, ← Nat.add_assoc] at this

theorem State.exchanges_append (s : State) (j : Nat) (as bs : List Byte) :
    s.exchanges j (as ++ bs) = s.exchanges j as ++ s.exchanges (j + as.length) bs := by
  induction as generalizing j with
  | nil => simp [State.exchanges]
  | cons a as ih => simp [State.exchanges, ih, Nat.add_assoc, Nat.add_comm 1]

theorem State.bitsFor_add (s : State) (m n : Nat) : s.bitsFor (m + n) = s.bitsFor m + s.bitsFor n := by
  unfold State.bitsFor; split <;> omega

theorem State.bytesFor_add (s : State) (m n : Nat) : s.bytesFor (m + n) = s.bytesFor m + s.bytesFor n := by
  unfold State.bytesFor; split <;> omega

theorem State.pinsAfter_append (as bs : List Byte) (s : State) :
    (s.sent as).pinsAfter bs = s.pinsAfter (as ++ bs) := by
  unfold State.pinsAfter State.sent State.pinsAfter
  cases h : s.transport
  · simp [State.transport, show s.cfg.transport = .hw from h]
  · cases bs with
    | nil => simp [State.transport, show s.cfg.transport = .sw from h]
    | cons b bs => simp [State.transport, show s.cfg.transport = .sw from h, List.getLast?_cons]

/-- Sending bytes after bytes is sending them all. -/
theorem State.sent_sent (as bs : List Byte) (s : State) : (s.sent as).sent bs = s.sent (as ++ bs) := by
  have hx : (s.sent as).exchanges 0 bs = s.exchanges as.length bs :=
    State.exchanges_congr (fun j => by rw [State.sent_answerByte, Nat.zero_add]) bs
  have hall := State.exchanges_append s 0 as bs
  rw [Nat.zero_add] at hall
  have hp := State.pinsAfter_append as bs s
  have e : (s.sent as).sent bs = { s.sent as with
    pins := (s.sent as).pinsAfter bs
    ev := (s.sent as).ev ++ ((s.sent as).exchanges 0 bs).flatMap (byteEvents s.cfg)
    slaveBits := (s.sent as).slaveBits.drop (s.bitsFor bs.length)
    slaveBytes := (s.sent as).slaveBytes.drop (s.bytesFor bs.length)
    answers := (s.sent as).answers + (s.bitsFor bs.length + s.bytesFor bs.length) } := rfl
  rw [e, hx, hp]
  simp only [State.sent, hall, List.flatMap_append, List.append_assoc, List.length_append, List.drop_drop,
    State.bitsFor_add, State.bytesFor_add, State.mk.injEq, true_and]
  omega

/-- The working registers play no part in what sending bytes does. -/
theorem State.sent_withWorkRegs (ts : List Byte) (s : State) (w : WorkRegs) :
    ({ s with work := w } : State).sent ts = { s.sent ts with work := w } := by
  have hx : ({ s with work := w } : State).exchanges 0 ts = s.exchanges 0 ts :=
    State.exchanges_congr (s := s) (t := { s with work := w }) (fun j => State.answerByte_congr rfl rfl rfl rfl _) ts
  simp only [State.sent, hx]
  rfl

/-! ### PINCFG -/

/-- PINCFG, in closed form (40_transport R130, R131). -/
theorem State.pinSetup_eq (s : State) : s.pinSetup = s.configured := by
  unfold State.pinSetup State.configured setupEvents
  cases h : s.transport <;>
    simp [State.drive, State.setDirection, State.startHw, State.emit, Pins.setLat, Pins.setDir, OutLine.line, pinOf,
      show s.cfg.transport = _ from h]

/-- After PINCFG the pins are ready, whatever they were before (40_transport R130, R131). -/
theorem State.configured_pinsReady (s : State) : s.configured.pinsReady = true := by
  unfold State.pinsReady State.configured
  cases h : s.transport <;> simp [State.transport, show s.cfg.transport = _ from h, State.dirn]

/-! ### The readiness check -/

/-- What a bus operation does, by its readiness check (10_state R27). -/
theorem State.withPins_ready {i : Instr} {body : State → State} {s : State} (h : s.pinsReady = true) :
    s.withPins i body = body s := by
  simp [State.withPins, h]

theorem State.withPins_unready {i : Instr} {body : State → State} {s : State} (h : s.pinsReady = false) :
    s.withPins i body = s.raise .pinsUnconfigured (commandWord i) := by
  simp [State.withPins, h]

end Sys2Proof.Machine
end

