-- ==== Sys2Proof/Laws/Frames.lean ====
section
/-! SUPPORT. What a frame does, once: the closed forms of the header step, the read frame and the write frame, up to the
working registers, and what a frame leaves alone. -/

namespace Sys2Proof.Machine

/-! ### Up to the working registers -/

/-- A state with other working registers. -/
def State.withWork (w : WorkRegs) (s : State) : State := { s with work := w }

@[simp] theorem State.withWork_withWork (v w : WorkRegs) (s : State) :
    (s.withWork v).withWork w = s.withWork w := rfl

@[simp] theorem State.withWork_cfg (m : WorkRegs) (s : State) : (s.withWork m).cfg = s.cfg := rfl
@[simp] theorem State.withWork_pins (m : WorkRegs) (s : State) : (s.withWork m).pins = s.pins := rfl
@[simp] theorem State.withWork_hwStarted (m : WorkRegs) (s : State) : (s.withWork m).hwStarted = s.hwStarted := rfl
@[simp] theorem State.withWork_hwInTxn (m : WorkRegs) (s : State) : (s.withWork m).hwInTxn = s.hwInTxn := rfl
@[simp] theorem State.withWork_chipId (m : WorkRegs) (s : State) : (s.withWork m).chipId = s.chipId := rfl
@[simp] theorem State.withWork_idOk (m : WorkRegs) (s : State) : (s.withWork m).idOk = s.idOk := rfl
@[simp] theorem State.withWork_trim (m : WorkRegs) (s : State) : (s.withWork m).trim = s.trim := rfl
@[simp] theorem State.withWork_stage (m : WorkRegs) (s : State) : (s.withWork m).stage = s.stage := rfl
@[simp] theorem State.withWork_raw (m : WorkRegs) (s : State) : (s.withWork m).raw = s.raw := rfl
@[simp] theorem State.withWork_phase (m : WorkRegs) (s : State) : (s.withWork m).phase = s.phase := rfl
@[simp] theorem State.withWork_fault (m : WorkRegs) (s : State) : (s.withWork m).fault = s.fault := rfl
@[simp] theorem State.withWork_refused (m : WorkRegs) (s : State) : (s.withWork m).refused = s.refused := rfl
@[simp] theorem State.withWork_ev (m : WorkRegs) (s : State) : (s.withWork m).ev = s.ev := rfl
@[simp] theorem State.withWork_work (m : WorkRegs) (s : State) : (s.withWork m).work = m := rfl
@[simp] theorem State.withWork_results (m : WorkRegs) (s : State) : (s.withWork m).results = s.results := rfl
@[simp] theorem State.withWork_pending (m : WorkRegs) (s : State) : (s.withWork m).pending = s.pending := rfl
@[simp] theorem State.withWork_slaveBits (m : WorkRegs) (s : State) : (s.withWork m).slaveBits = s.slaveBits := rfl
@[simp] theorem State.withWork_slaveBytes (m : WorkRegs) (s : State) : (s.withWork m).slaveBytes = s.slaveBytes := rfl
@[simp] theorem State.withWork_answers (m : WorkRegs) (s : State) : (s.withWork m).answers = s.answers := rfl

theorem State.withWork_self (s : State) : s.withWork s.work = s := rfl

@[simp] theorem State.withWork_complete (w : WorkRegs) (r : Result) (s : State) :
    (s.withWork w).complete r = s.complete r := rfl

@[simp] theorem State.withWork_settle (w : WorkRegs) (s : State) : (s.withWork w).settle = s.settle := rfl

theorem State.withWork_sent (w : WorkRegs) (ts : List Byte) (s : State) :
    (s.withWork w).sent ts = (s.sent ts).withWork w := State.sent_withWorkRegs ts s w

@[simp] theorem State.withWork_answerByte (w : WorkRegs) (s : State) (j : Nat) :
    (s.withWork w).answerByte j = s.answerByte j := State.answerByte_congr rfl rfl rfl rfl j

theorem State.withWork_exchanges (w : WorkRegs) (s : State) (j : Nat) (ts : List Byte) :
    (s.withWork w).exchanges j ts = s.exchanges j ts :=
  State.exchanges_congr (fun i => State.withWork_answerByte w s (j + i)) ts

theorem State.withWork_openFrame (w : WorkRegs) (s : State) :
    (s.withWork w).openFrame = s.openFrame.withWork w := by
  unfold State.openFrame
  rw [show (s.withWork w).transport = s.transport from rfl]
  cases s.transport <;> rfl

theorem State.withWork_closeFrame (w : WorkRegs) (s : State) :
    (s.withWork w).closeFrame = s.closeFrame.withWork w := by
  unfold State.closeFrame
  rw [show (s.withWork w).transport = s.transport from rfl]
  cases s.transport <;> rfl

theorem State.withWork_framed (w : WorkRegs) (ts : List Byte) (s : State) :
    (s.withWork w).framed ts = (s.framed ts).withWork w := by
  simp only [State.framed, State.withWork_exchanges, State.withWork_sent]
  rfl

/-! ### Exchanges -/

/-- XFERB up to the working registers. -/
theorem State.xferB_sent (t : Byte) (s : State) : s.xferB t = (s.sent [t]).withWork (s.workAfter t) :=
  State.xferB_eq t s

theorem State.setHdr_withWork (h : Byte) (s : State) : s.setHdr h = s.withWork { s.work with hdr := some h } := rfl
theorem State.setK_withWork (k : Nat) (s : State) : s.setK k = s.withWork { s.work with k := some k } := rfl
theorem State.setOff_withWork (o : Nat) (s : State) : s.setOff o = s.withWork { s.work with off := some o } := rfl

/-- The header step (41_frames R150, R160): the header is sent, whatever is answered is dropped. -/
theorem State.sendHeader_sent (h : Byte) (s : State) :
    s.sendHeader h = (s.sent [h]).withWork (s.sendHeader h).work := by
  have hh : (s.setHdr h).hdr = h := rfl
  unfold State.sendHeader
  rw [hh, State.xferB_sent, State.setHdr_withWork, State.withWork_sent]
  rfl

@[simp] theorem State.sendHeader_off (h : Byte) (s : State) : (s.sendHeader h).work.off = s.work.off := by
  have hh : (s.setHdr h).hdr = h := rfl
  unfold State.sendHeader
  rw [hh, State.xferB_eq]
  simp

theorem State.answerBytes_congr {s t : State} {k l : Nat} (h : ∀ j, t.answerByte (k + j) = s.answerByte (l + j))
    (n : Nat) : t.answerBytes k n = s.answerBytes l n := by
  induction n generalizing k l with
  | zero => rfl
  | succ n ih =>
    simp only [State.answerBytes, List.cons.injEq]
    refine ⟨by simpa using h 0, ih fun j => ?_⟩
    have := h (1 + j)
    rwa [← Nat.add_assoc, ← Nat.add_assoc] at this

@[simp] theorem State.answerBytes_length (s : State) (j n : Nat) : (s.answerBytes j n).length = n := by
  induction n generalizing j with
  | zero => rfl
  | succ n ih => simp [State.answerBytes, ih]

theorem State.answerBytes_getElem? (s : State) (n : Nat) : ∀ (j i : Nat),
    (s.answerBytes j n)[i]? = if i < n then some (s.answerByte (j + i)) else none := by
  induction n with
  | zero => intro j i; simp [State.answerBytes]
  | succ n ih =>
    intro j i
    cases i with
    | zero => simp [State.answerBytes]
    | succ i => simp [State.answerBytes, ih, Nat.add_assoc, Nat.add_comm 1]

theorem State.answerBytes_getElem (s : State) (n j i : Nat) (h : i < (s.answerBytes j n).length) :
    (s.answerBytes j n)[i] = s.answerByte (j + i) := by
  have h' := State.answerBytes_getElem? s n j i
  rw [List.getElem?_eq_getElem h] at h'
  rw [State.answerBytes_length] at h
  simpa [h] using h'

theorem State.answerBytes_add (s : State) (m n : Nat) : ∀ j,
    s.answerBytes j (m + n) = s.answerBytes j m ++ s.answerBytes (j + m) n := by
  induction m with
  | zero => intro j; simp [State.answerBytes]
  | succ m ih => intro j; rw [Nat.succ_add]; simp [State.answerBytes, ih, Nat.add_assoc, Nat.add_comm 1]

/-- The payload of a read frame (41_frames R150): the bytes are the slave's next answers. -/
theorem State.readPayload_eq (n : Nat) : ∀ (k : Nat) (s : State),
    (State.readPayload k n s).1 = s.answerBytes 0 n ∧
    (State.readPayload k n s).2 = (s.sent (List.replicate n 0x00#8)).withWork (State.readPayload k n s).2.work ∧
    (State.readPayload k n s).2.work.off = s.work.off := by
  induction n with
  | zero =>
    intro k s
    refine ⟨rfl, ?_, rfl⟩
    cases h : s.transport <;>
      simp [State.readPayload, State.sent, State.withWork, State.exchanges, State.pinsAfter, State.bitsFor,
        State.bytesFor, h]
  | succ n ih =>
    intro k s
    obtain ⟨h1, h2, h3⟩ := ih (k + 1) ((s.setK k).xferB dummyByte)
    have hx : (s.setK k).xferB dummyByte =
        (s.sent [0x00#8]).withWork ((s.setK k).xferB dummyByte).work := by
      rw [State.xferB_sent, State.setK_withWork, State.withWork_sent]
      rfl
    have hoff : ((s.setK k).xferB dummyByte).work.off = s.work.off := by
      rw [State.xferB_eq]; simp
    refine ⟨?_, ?_, ?_⟩
    · simp only [State.readPayload, h1, State.xferByte_eq, State.answerBytes, List.cons.injEq]
      refine ⟨State.answerByte_congr rfl rfl rfl rfl 0, State.answerBytes_congr (fun j => ?_) n⟩
      rw [hx, State.withWork_answerByte, State.sent_answerByte]
      simp [Nat.add_comm]
    · simp only [State.readPayload]
      rw [h2, hx, State.withWork_sent, State.sent_sent]
      rfl
    · simp only [State.readPayload]
      rw [h3, hoff]

/-! ### Frames -/

/-- Opening a frame, sending bytes and closing it is the frame's closed form. -/
theorem State.openFrame_sent_closeFrame (ts : List Byte) (s : State) :
    (s.openFrame.sent ts).closeFrame = s.framed ts := by
  have ha : ∀ j, s.openFrame.answerByte j = s.answerByte j := by
    intro j
    unfold State.openFrame
    cases s.transport <;> exact State.answerByte_congr rfl rfl rfl rfl j
  have hx : s.openFrame.exchanges 0 ts = s.exchanges 0 ts :=
    State.exchanges_congr (fun j => ha (0 + j)) ts
  unfold State.closeFrame State.framed State.sent
  rw [hx]
  unfold State.openFrame frameEvents openEvents closeEvents
  cases h : s.transport <;>
    simp [State.transport, show s.cfg.transport = _ from h, State.drive, State.endHw, State.beginHw, State.emit,
      Pins.setLat, OutLine.line, pinOf, State.pinsAfter, State.bitsFor, State.bytesFor, Config.hwClockHz,
      Config.hwBitOrder, Config.hwMode]

theorem State.openFrame_answerByte (s : State) (j : Nat) : s.openFrame.answerByte j = s.answerByte j := by
  unfold State.openFrame
  cases s.transport <;> exact State.answerByte_congr rfl rfl rfl rfl j

@[simp] theorem State.openFrame_work (s : State) : s.openFrame.work = s.work := by
  unfold State.openFrame; cases s.transport <;> rfl

@[simp] theorem State.closeFrame_work (s : State) : s.closeFrame.work = s.work := by
  unfold State.closeFrame; cases s.transport <;> rfl

/-- A read frame returns the answers after the one to its header (41_frames R150). -/
theorem State.readFrame_bytes (addr : Byte) (n : Nat) (s : State) : (s.readFrame addr n).1 = s.answerBytes 1 n := by
  simp only [State.readFrame]
  rw [(State.readPayload_eq n 0 _).1, State.sendHeader_sent]
  refine State.answerBytes_congr (fun j => ?_) n
  rw [State.withWork_answerByte, State.sent_answerByte, State.openFrame_answerByte]
  simp

/-- A read frame up to the working registers (41_frames R150). -/
theorem State.readFrame_state (addr : Byte) (n : Nat) (s : State) :
    (s.readFrame addr n).2 = (s.framed (readBytes addr n)).withWork (s.readFrame addr n).2.work := by
  simp only [State.readFrame]
  rw [(State.readPayload_eq n 0 _).2.1, State.sendHeader_sent, State.withWork_sent, State.sent_sent]
  simp only [State.withWork_withWork, State.withWork_closeFrame, State.withWork_work]
  rw [State.openFrame_sent_closeFrame]
  rfl

@[simp] theorem State.readFrame_off (addr : Byte) (n : Nat) (s : State) :
    (s.readFrame addr n).2.work.off = s.work.off := by
  simp only [State.readFrame, State.closeFrame_work]
  rw [(State.readPayload_eq n 0 _).2.2]
  simp

/-- A write frame up to the working registers (41_frames R160). -/
theorem State.writeFrame_state (addr d : Byte) (s : State) :
    s.writeFrame addr d = (s.framed (writeBytes addr d)).withWork (s.writeFrame addr d).work := by
  simp only [State.writeFrame]
  rw [State.xferB_sent, State.sendHeader_sent, State.withWork_sent, State.sent_sent]
  simp only [State.withWork_withWork, State.withWork_closeFrame, State.withWork_work]
  rw [State.openFrame_sent_closeFrame]
  rfl

@[simp] theorem State.writeFrame_off (addr d : Byte) (s : State) : (s.writeFrame addr d).work.off = s.work.off := by
  simp only [State.writeFrame, State.closeFrame_work]
  rw [State.xferB_eq]
  simp

/-! ### What a frame leaves alone (20_memory R72) -/

@[simp] theorem State.framed_transport (ts : List Byte) (s : State) : (s.framed ts).transport = s.transport := rfl

/-- A frame takes an answer for each byte sent. -/
theorem State.framed_answerByte (ts : List Byte) (s : State) (j : Nat) :
    (s.framed ts).answerByte j = s.answerByte (ts.length + j) := by
  rw [← State.sent_answerByte]
  exact State.answerByte_congr rfl rfl rfl rfl j

/-- The events of a frame, its bytes counted from an earlier state. -/
theorem State.framed_ev_from {s t : State} {j : Nat} (ts : List Byte) (hc : t.cfg = s.cfg)
    (h : ∀ i, t.answerByte i = s.answerByte (j + i)) :
    (t.framed ts).ev = t.ev ++ frameEvents s.cfg (s.exchanges j ts) := by
  rw [← State.exchanges_congr (s := s) (t := t) (k := 0) (l := j) (fun i => by rw [Nat.zero_add, h]) ts, ← hc]
  rfl

theorem State.pinsAfter_dirs (ts : List Byte) (s : State) :
    (s.pinsAfter ts).dirCs = s.pins.dirCs ∧ (s.pinsAfter ts).dirSck = s.pins.dirSck ∧
    (s.pinsAfter ts).dirMosi = s.pins.dirMosi ∧ (s.pinsAfter ts).dirMiso = s.pins.dirMiso := by
  unfold State.pinsAfter; split <;> simp

/-- A frame leaves the pins ready if they were. -/
theorem State.framed_pinsReady (ts : List Byte) (s : State) : (s.framed ts).pinsReady = s.pinsReady := by
  obtain ⟨h1, h2, h3, h4⟩ := State.pinsAfter_dirs ts s
  simp only [State.pinsReady, State.dirn, State.framed, h1, h2, h3, h4]
  rfl

@[simp] theorem readBytes_length (addr : Byte) (n : Nat) : (readBytes addr n).length = n + 1 := by
  simp [readBytes]

@[simp] theorem writeBytes_length (addr d : Byte) : (writeBytes addr d).length = 2 := rfl

/-! ### The buffers play no part in a frame -/

/-- A state with another `TRIM`. -/
def State.withTrim (m : Memory Byte) (s : State) : State := { s with trim := m }

/-- A state with another `STAGE`. -/
def State.withStage (m : Memory Byte) (s : State) : State := { s with stage := m }

@[simp] theorem State.withTrim_cfg (m : Memory Byte) (s : State) : (s.withTrim m).cfg = s.cfg := rfl
@[simp] theorem State.withTrim_pins (m : Memory Byte) (s : State) : (s.withTrim m).pins = s.pins := rfl
@[simp] theorem State.withTrim_hwStarted (m : Memory Byte) (s : State) : (s.withTrim m).hwStarted = s.hwStarted := rfl
@[simp] theorem State.withTrim_hwInTxn (m : Memory Byte) (s : State) : (s.withTrim m).hwInTxn = s.hwInTxn := rfl
@[simp] theorem State.withTrim_chipId (m : Memory Byte) (s : State) : (s.withTrim m).chipId = s.chipId := rfl
@[simp] theorem State.withTrim_idOk (m : Memory Byte) (s : State) : (s.withTrim m).idOk = s.idOk := rfl
@[simp] theorem State.withTrim_trim (m : Memory Byte) (s : State) : (s.withTrim m).trim = m := rfl
@[simp] theorem State.withTrim_stage (m : Memory Byte) (s : State) : (s.withTrim m).stage = s.stage := rfl
@[simp] theorem State.withTrim_raw (m : Memory Byte) (s : State) : (s.withTrim m).raw = s.raw := rfl
@[simp] theorem State.withTrim_phase (m : Memory Byte) (s : State) : (s.withTrim m).phase = s.phase := rfl
@[simp] theorem State.withTrim_fault (m : Memory Byte) (s : State) : (s.withTrim m).fault = s.fault := rfl
@[simp] theorem State.withTrim_refused (m : Memory Byte) (s : State) : (s.withTrim m).refused = s.refused := rfl
@[simp] theorem State.withTrim_ev (m : Memory Byte) (s : State) : (s.withTrim m).ev = s.ev := rfl
@[simp] theorem State.withTrim_work (m : Memory Byte) (s : State) : (s.withTrim m).work = s.work := rfl
@[simp] theorem State.withTrim_results (m : Memory Byte) (s : State) : (s.withTrim m).results = s.results := rfl
@[simp] theorem State.withTrim_pending (m : Memory Byte) (s : State) : (s.withTrim m).pending = s.pending := rfl
@[simp] theorem State.withTrim_slaveBits (m : Memory Byte) (s : State) : (s.withTrim m).slaveBits = s.slaveBits := rfl
@[simp] theorem State.withTrim_slaveBytes (m : Memory Byte) (s : State) : (s.withTrim m).slaveBytes = s.slaveBytes := rfl
@[simp] theorem State.withTrim_answers (m : Memory Byte) (s : State) : (s.withTrim m).answers = s.answers := rfl

@[simp] theorem State.withStage_cfg (m : Memory Byte) (s : State) : (s.withStage m).cfg = s.cfg := rfl
@[simp] theorem State.withStage_pins (m : Memory Byte) (s : State) : (s.withStage m).pins = s.pins := rfl
@[simp] theorem State.withStage_hwStarted (m : Memory Byte) (s : State) : (s.withStage m).hwStarted = s.hwStarted := rfl
@[simp] theorem State.withStage_hwInTxn (m : Memory Byte) (s : State) : (s.withStage m).hwInTxn = s.hwInTxn := rfl
@[simp] theorem State.withStage_chipId (m : Memory Byte) (s : State) : (s.withStage m).chipId = s.chipId := rfl
@[simp] theorem State.withStage_idOk (m : Memory Byte) (s : State) : (s.withStage m).idOk = s.idOk := rfl
@[simp] theorem State.withStage_trim (m : Memory Byte) (s : State) : (s.withStage m).trim = s.trim := rfl
@[simp] theorem State.withStage_stage (m : Memory Byte) (s : State) : (s.withStage m).stage = m := rfl
@[simp] theorem State.withStage_raw (m : Memory Byte) (s : State) : (s.withStage m).raw = s.raw := rfl
@[simp] theorem State.withStage_phase (m : Memory Byte) (s : State) : (s.withStage m).phase = s.phase := rfl
@[simp] theorem State.withStage_fault (m : Memory Byte) (s : State) : (s.withStage m).fault = s.fault := rfl
@[simp] theorem State.withStage_refused (m : Memory Byte) (s : State) : (s.withStage m).refused = s.refused := rfl
@[simp] theorem State.withStage_ev (m : Memory Byte) (s : State) : (s.withStage m).ev = s.ev := rfl
@[simp] theorem State.withStage_work (m : Memory Byte) (s : State) : (s.withStage m).work = s.work := rfl
@[simp] theorem State.withStage_results (m : Memory Byte) (s : State) : (s.withStage m).results = s.results := rfl
@[simp] theorem State.withStage_pending (m : Memory Byte) (s : State) : (s.withStage m).pending = s.pending := rfl
@[simp] theorem State.withStage_slaveBits (m : Memory Byte) (s : State) : (s.withStage m).slaveBits = s.slaveBits := rfl
@[simp] theorem State.withStage_slaveBytes (m : Memory Byte) (s : State) : (s.withStage m).slaveBytes = s.slaveBytes := rfl
@[simp] theorem State.withStage_answers (m : Memory Byte) (s : State) : (s.withStage m).answers = s.answers := rfl

@[simp] theorem State.withTrim_answerByte (m : Memory Byte) (s : State) (j : Nat) :
    (s.withTrim m).answerByte j = s.answerByte j := State.answerByte_congr rfl rfl rfl rfl j

@[simp] theorem State.withStage_answerByte (m : Memory Byte) (s : State) (j : Nat) :
    (s.withStage m).answerByte j = s.answerByte j := State.answerByte_congr rfl rfl rfl rfl j

theorem State.withTrim_framed (m : Memory Byte) (ts : List Byte) (s : State) :
    (s.withTrim m).framed ts = (s.framed ts).withTrim m := by
  have hx : (s.withTrim m).exchanges 0 ts = s.exchanges 0 ts :=
    State.exchanges_congr (s := s) (t := s.withTrim m) (fun j => State.withTrim_answerByte m s (0 + j)) ts
  simp only [State.framed, State.sent, hx]
  rfl

theorem State.withStage_framed (m : Memory Byte) (ts : List Byte) (s : State) :
    (s.withStage m).framed ts = (s.framed ts).withStage m := by
  have hx : (s.withStage m).exchanges 0 ts = s.exchanges 0 ts :=
    State.exchanges_congr (s := s) (t := s.withStage m) (fun j => State.withStage_answerByte m s (0 + j)) ts
  simp only [State.framed, State.sent, hx]
  rfl

/-! ### One region -/

/-- One region of RDTRIM (42_calibration R181). -/
theorem State.storeTrim_eq (addr : Byte) (len : Nat) (s : State) :
    ∃ w : WorkRegs, w.off = some (s.off + len) ∧
      (s.readFrame addr len).2.storeTrim len (s.readFrame addr len).1 =
        ((s.framed (readBytes addr len)).withTrim
          (Memory.writeList s.trim s.off (s.answerBytes 1 len))).withWork w := by
  have ho : (s.readFrame addr len).2.off = s.off := by simp [State.off]
  have hs := State.readFrame_state addr len s
  simp only [State.storeTrim, State.readFrame_bytes, ho]
  refine ⟨_, ?_, by rw [hs]; rfl⟩
  rfl

/-- One region of RDDATA (44_sample R230). -/
theorem State.storeStage_eq (addr : Byte) (len : Nat) (s : State) :
    ∃ w : WorkRegs, w.off = some (s.off + len) ∧
      (s.readFrame addr len).2.storeStage len (s.readFrame addr len).1 =
        ((s.framed (readBytes addr len)).withStage
          (Memory.writeList s.stage s.off (s.answerBytes 1 len))).withWork w := by
  have ho : (s.readFrame addr len).2.off = s.off := by simp [State.off]
  have hs := State.readFrame_state addr len s
  simp only [State.storeStage, State.readFrame_bytes, ho]
  refine ⟨_, ?_, by rw [hs]; rfl⟩
  rfl

end Sys2Proof.Machine
end

