-- ==== Sys2Proof/Laws/Operations.lean ====
section
/-! SUPPORT. What the shared bodies of RDTRIM, IDCHK, BEGIN and RDDATA do, once: their closed forms up to the working
registers; and what a step can do. -/

namespace Sys2Proof.Machine

theorem Memory.writeList_append {α : Type} (as bs : List α) : ∀ (m : Memory α) (off : Nat),
    Memory.writeList m off (as ++ bs) = Memory.writeList (Memory.writeList m off as) (off + as.length) bs := by
  induction as with
  | nil => intro m off; rfl
  | cons a as ih =>
    intro m off
    simp only [List.cons_append, Memory.writeList, ih, List.length_cons]
    rw [show off + 1 + as.length = off + (as.length + 1) by omega]

/-! ### Region loops in closed form -/

/-- The read frames of a list of regions. -/
def State.regionFrames (rs : List (Byte × Nat)) (s : State) : State :=
  rs.foldl (fun s r => s.framed (readBytes r.1 r.2)) s

/-- The bytes of a list of regions, the first header being answer `j`. -/
def State.regionBytes (s : State) : Nat → List (Byte × Nat) → List Byte
  | _, [] => []
  | j, r :: rs => s.answerBytes (j + 1) r.2 ++ State.regionBytes s (j + (r.2 + 1)) rs

/-- How many bytes a list of regions has. -/
def regionLength (rs : List (Byte × Nat)) : Nat := (rs.map Prod.snd).sum

theorem State.withTrim_regionFrames (m : Memory Byte) (rs : List (Byte × Nat)) : ∀ s : State,
    (s.withTrim m).regionFrames rs = (s.regionFrames rs).withTrim m := by
  induction rs with
  | nil => intro s; rfl
  | cons r rs ih => intro s; simp only [State.regionFrames, List.foldl_cons] at ih ⊢; rw [State.withTrim_framed, ih]

theorem State.withStage_regionFrames (m : Memory Byte) (rs : List (Byte × Nat)) : ∀ s : State,
    (s.withStage m).regionFrames rs = (s.regionFrames rs).withStage m := by
  induction rs with
  | nil => intro s; rfl
  | cons r rs ih => intro s; simp only [State.regionFrames, List.foldl_cons] at ih ⊢; rw [State.withStage_framed, ih]

theorem State.withWork_regionFrames (w : WorkRegs) (rs : List (Byte × Nat)) : ∀ s : State,
    (s.withWork w).regionFrames rs = (s.regionFrames rs).withWork w := by
  induction rs with
  | nil => intro s; rfl
  | cons r rs ih => intro s; simp only [State.regionFrames, List.foldl_cons] at ih ⊢; rw [State.withWork_framed, ih]

theorem State.regionBytes_congr {s t : State} (rs : List (Byte × Nat)) : ∀ {k l : Nat},
    (∀ j, t.answerByte (k + j) = s.answerByte (l + j)) → t.regionBytes k rs = s.regionBytes l rs := by
  induction rs with
  | nil => intro k l _; rfl
  | cons r rs ih =>
    intro k l h
    simp only [State.regionBytes]
    rw [State.answerBytes_congr (s := s) (l := l + 1)
      (fun j => by rw [Nat.add_assoc, h, ← Nat.add_assoc]), ih (l := l + (r.2 + 1))
      (fun j => by rw [Nat.add_assoc, h, ← Nat.add_assoc])]

/-- The bytes of the regions after a first one, counted from the state after that one's frame. -/
theorem State.regionBytes_framed (s : State) (r : Byte × Nat) (rs : List (Byte × Nat)) :
    (s.framed (readBytes r.1 r.2)).regionBytes 0 rs = s.regionBytes (0 + (r.2 + 1)) rs := by
  refine State.regionBytes_congr rs fun j => ?_
  rw [State.framed_answerByte]
  simp

/-- RDTRIM's loop (42_calibration R181) over any regions: every frame is sent, and the bytes land at the running offset. -/
theorem State.trimLoop_eq (rs : List (Byte × Nat)) : ∀ s : State,
    ∃ w : WorkRegs, w.off.getD 0 = s.off + regionLength rs ∧
      State.trimLoop rs s = ((s.regionFrames rs).withTrim
        (Memory.writeList s.trim s.off (s.regionBytes 0 rs))).withWork w := by
  induction rs with
  | nil => intro s; exact ⟨s.work, rfl, rfl⟩
  | cons r rs ih =>
    intro s
    obtain ⟨a, len⟩ := r
    obtain ⟨v, hv, hs⟩ := State.storeTrim_eq a len s
    generalize hm : Memory.writeList s.trim s.off (s.answerBytes 1 len) = m at hs
    obtain ⟨w, hw, h1⟩ := ih ((((s.framed (readBytes a len)).withTrim m).withWork v))
    have hoff : (((s.framed (readBytes a len)).withTrim m).withWork v).off = s.off + len := by
      show v.off.getD 0 = _
      rw [hv]; rfl
    have hb : (((s.framed (readBytes a len)).withTrim m).withWork v).regionBytes 0 rs =
        s.regionBytes (0 + (len + 1)) rs := by
      rw [← State.regionBytes_framed s (a, len) rs]
      exact State.regionBytes_congr rs fun j => by simp
    refine ⟨w, ?_, ?_⟩
    · rw [hw, hoff]; simp [regionLength, Nat.add_assoc]
    · rw [State.trimLoop, hs, h1, hoff, hb, State.withWork_regionFrames, State.withTrim_regionFrames]
      simp only [State.regionBytes, Memory.writeList_append, State.answerBytes_length, Nat.zero_add, hm]
      rfl

/-- RDDATA's reads (44_sample R230) over any regions. -/
theorem State.stageLoop_eq (rs : List (Byte × Nat)) : ∀ s : State,
    ∃ w : WorkRegs, State.stageLoop rs s = ((s.regionFrames rs).withStage
      (Memory.writeList s.stage s.off (s.regionBytes 0 rs))).withWork w := by
  induction rs with
  | nil => intro s; exact ⟨s.work, rfl⟩
  | cons r rs ih =>
    intro s
    obtain ⟨a, len⟩ := r
    obtain ⟨v, hv, hs⟩ := State.storeStage_eq a len s
    generalize hm : Memory.writeList s.stage s.off (s.answerBytes 1 len) = m at hs
    obtain ⟨w, h1⟩ := ih ((((s.framed (readBytes a len)).withStage m).withWork v))
    have hoff : (((s.framed (readBytes a len)).withStage m).withWork v).off = s.off + len := by
      show v.off.getD 0 = _
      rw [hv]; rfl
    have hb : (((s.framed (readBytes a len)).withStage m).withWork v).regionBytes 0 rs =
        s.regionBytes (0 + (len + 1)) rs := by
      rw [← State.regionBytes_framed s (a, len) rs]
      exact State.regionBytes_congr rs fun j => by simp
    refine ⟨w, ?_⟩
    rw [State.stageLoop, hs, h1, hoff, hb, State.withWork_regionFrames, State.withStage_regionFrames]
    simp only [State.regionBytes, Memory.writeList_append, State.answerBytes_length, Nat.zero_add, hm]
    rfl

/-! ### RDTRIM -/

theorem State.setOff_regionBytes (s : State) (o : Nat) (rs : List (Byte × Nat)) :
    (s.setOff o).regionBytes 0 rs = s.regionBytes 0 rs :=
  State.regionBytes_congr (s := s) (t := s.setOff o) rs fun j => State.withWork_answerByte _ s (0 + j)

theorem State.regionBytes_trim (s : State) : s.regionBytes 0 trimRegions = s.trimBytes 0 := by
  simp [trimRegions, State.regionBytes, State.trimBytes]

theorem State.regionBytes_data (s : State) : s.regionBytes 0 dataRegions = s.sampleBytes := by
  simp [dataRegions, State.regionBytes, State.sampleBytes]

theorem State.regionFrames_trim (s : State) : s.regionFrames trimRegions = s.trimFrames := rfl

theorem State.regionFrames_data (s : State) : s.regionFrames dataRegions = s.dataFrames := rfl

/-- The body of RDTRIM (42_calibration R181). -/
theorem State.readTrim_eq (s : State) :
    ∃ w : WorkRegs, w.off.getD 0 = 32 ∧
      s.readTrim = (s.trimFrames.withTrim (Memory.writeList s.trim 0 (s.trimBytes 0))).withWork w := by
  obtain ⟨w, hw, h⟩ := State.trimLoop_eq trimRegions (s.setOff 0)
  refine ⟨w, by rw [hw]; rfl, ?_⟩
  rw [State.setOff_regionBytes, State.regionBytes_trim, State.setOff_withWork, State.withWork_regionFrames,
    State.regionFrames_trim] at h
  rw [State.readTrim, State.setOff_withWork, h]
  rfl

/-- The running offset is 32 after every RDTRIM (42_calibration R182). -/
theorem State.readTrim_ok (s : State) : trimOk s.readTrim.off = true := by
  obtain ⟨w, hw, h⟩ := State.readTrim_eq s
  have : s.readTrim.off = 32 := by rw [h]; exact hw
  rw [this]; rfl

/-! ### IDCHK -/

theorem State.readId_eq (s : State) : s.readId = s.answerByte 1 := by
  simp [State.readId, State.readFrame_bytes, State.answerBytes]

/-- What an identity check leaves (43_identity R201), but for the working registers. -/
def State.identified (s : State) : State :=
  { s.framed (readBytes Config.idAddr 1) with
    chipId := some (s.answerByte 1), idOk := idMatches (s.answerByte 1) }

/-- The body of IDCHK (43_identity R201). -/
theorem State.idCheck_eq (s : State) : ∃ w : WorkRegs, s.idCheck = s.identified.withWork w := by
  refine ⟨(s.readFrame Config.idAddr 1).2.work, ?_⟩
  rw [State.idCheck, State.readId_eq, State.readFrame_state]
  rfl

/-! ### BEGIN -/

theorem State.withWork_initFrames (w : WorkRegs) (s : State) :
    (s.withWork w).initFrames = s.initFrames.withWork w := by
  simp only [State.initFrames, State.withWork_framed]
  rfl

theorem State.withWork_trimFrames (w : WorkRegs) (s : State) :
    (s.withWork w).trimFrames = s.trimFrames.withWork w := by
  simp only [State.trimFrames, State.withWork_framed]

theorem State.initRegisters_eq (s : State) : ∃ w : WorkRegs, s.initRegisters = s.initFrames.withWork w := by
  have hw : ∀ (a d : Byte) (t : State), ∃ w, t.writeFrame a d = (t.framed (writeBytes a d)).withWork w :=
    fun a d t => ⟨_, State.writeFrame_state a d t⟩
  obtain ⟨u, hu⟩ := hw Config.ctrlHumAddr (Config.ctrlHumByte s.cfg.settings) s
  generalize h1 : s.framed (writeBytes Config.ctrlHumAddr (Config.ctrlHumByte s.cfg.settings)) = s1 at hu
  obtain ⟨v, hv⟩ := hw Config.ctrlMeasAddr (Config.ctrlMeasByte s.cfg.settings) (s1.withWork u)
  rw [State.withWork_framed, State.withWork_withWork] at hv
  generalize h2 : s1.framed (writeBytes Config.ctrlMeasAddr (Config.ctrlMeasByte s.cfg.settings)) = s2 at hv
  obtain ⟨w, hw⟩ := hw Config.configAddr (Config.configByte s.cfg.settings) (s2.withWork v)
  rw [State.withWork_framed, State.withWork_withWork] at hw
  exact ⟨w, by rw [State.initRegisters, hu, hv, hw, State.initFrames, h1, h2]⟩

theorem State.configured_answerByte (s : State) (j : Nat) : s.configured.answerByte j = s.answerByte j :=
  State.answerByte_congr rfl rfl rfl rfl j

/-- What BEGIN's check leaves (43_identity R206), but for the working registers. -/
def State.checked (s : State) : State := s.configured.identified

theorem State.pinSetup_idCheck (s : State) : ∃ w : WorkRegs, s.pinSetup.idCheck = s.checked.withWork w := by
  rw [State.pinSetup_eq]
  exact State.idCheck_eq s.configured

theorem State.checked_idOk (s : State) : s.checked.idOk = idMatches (s.answerByte 1) := by
  rw [← State.configured_answerByte]; rfl

theorem State.trimBytes_congr {s t : State} {k l : Nat} (h : ∀ j, t.answerByte (k + j) = s.answerByte (l + j)) :
    t.trimBytes k = s.trimBytes l := by
  simp only [State.trimBytes]
  congr 1
  · congr 1
    · congr 1
      · exact State.answerBytes_congr (fun j => by rw [Nat.add_assoc, h, ← Nat.add_assoc]) _
      · exact State.answerBytes_congr (fun j => by rw [Nat.add_assoc, h, ← Nat.add_assoc]) _
    · exact State.answerBytes_congr (fun j => by rw [Nat.add_assoc, h, ← Nat.add_assoc]) _
  · exact State.answerBytes_congr (fun j => by rw [Nat.add_assoc, h, ← Nat.add_assoc]) _

theorem State.initFrames_answerByte (s : State) (j : Nat) : s.initFrames.answerByte j = s.answerByte (6 + j) := by
  simp only [State.initFrames, State.framed_answerByte, writeBytes_length]
  congr 1; omega

theorem State.checked_answerByte (s : State) (j : Nat) : s.checked.answerByte j = s.answerByte (2 + j) := by
  rw [show s.checked.answerByte j = (s.configured.framed (readBytes Config.idAddr 1)).answerByte j from
    State.answerByte_congr rfl rfl rfl rfl j, State.framed_answerByte, State.configured_answerByte]
  simp

/-- What BEGIN leaves after the identity check passed (43_identity R206), but for the working registers, `PHASE` and the
result. -/
def State.loaded (s : State) : State :=
  s.checked.initFrames.trimFrames.withTrim (Memory.writeList s.trim 0 (s.trimBytes 8))

theorem State.initRegisters_readTrim (s : State) :
    ∃ w : WorkRegs, s.pinSetup.idCheck.initRegisters.readTrim = s.loaded.withWork w := by
  obtain ⟨u, hu⟩ := State.pinSetup_idCheck s
  obtain ⟨v, hv⟩ := State.initRegisters_eq (s.checked.withWork u)
  rw [State.withWork_initFrames, State.withWork_withWork] at hv
  obtain ⟨w, -, hw⟩ := State.readTrim_eq (s.checked.initFrames.withWork v)
  refine ⟨w, ?_⟩
  have hbytes : (s.checked.initFrames.withWork v).trimBytes 0 = s.trimBytes 8 := by
    refine State.trimBytes_congr fun j => ?_
    rw [State.withWork_answerByte, State.initFrames_answerByte, State.checked_answerByte]
    congr 1; omega
  rw [hbytes, State.withWork_trimFrames] at hw
  rw [hu, hv, hw]
  rfl

theorem State.withWork_finishBegin (w : WorkRegs) (ok : Bool) (s : State) :
    (s.withWork w).finishBegin ok = s.finishBegin ok := rfl

/-- BEGIN (43_identity R206) with an accepted ID. -/
theorem State.beginBody_match {s : State} (h : idMatches (s.answerByte 1) = true) :
    s.beginBody = s.loaded.finishBegin true := by
  obtain ⟨u, hu⟩ := State.pinSetup_idCheck s
  obtain ⟨w, hw⟩ := State.initRegisters_readTrim s
  have hok : s.pinSetup.idCheck.idOk = true := by
    rw [hu]; exact (State.checked_idOk s).trans h
  have hb : s.beginBody =
      s.pinSetup.idCheck.initRegisters.readTrim.finishBegin (trimOk s.pinSetup.idCheck.initRegisters.readTrim.off) := by
    unfold State.beginBody
    simp only
    rw [hok, if_pos rfl]
  rw [hb, State.readTrim_ok, hw, State.withWork_finishBegin]

/-- BEGIN (43_identity R206, R208) with any other ID. -/
theorem State.beginBody_mismatch {s : State} (h : idMatches (s.answerByte 1) = false) :
    s.beginBody = s.checked.finishBegin false := by
  obtain ⟨u, hu⟩ := State.pinSetup_idCheck s
  have hok : s.pinSetup.idCheck.idOk = false := by
    rw [hu]; exact (State.checked_idOk s).trans h
  have hb : s.beginBody = s.pinSetup.idCheck.finishBegin false := by
    unfold State.beginBody
    simp only
    rw [hok, if_neg (by decide)]
  rw [hb, hu, State.withWork_finishBegin]

@[simp] theorem State.finishBegin_trim (ok : Bool) (s : State) : (s.finishBegin ok).trim = s.trim := rfl

/-- `TRIM` after BEGIN with an accepted ID (43_identity R206). -/
@[simp] theorem State.loaded_trim (s : State) : s.loaded.trim = Memory.writeList s.trim 0 (s.trimBytes 8) :=
  State.withTrim_trim _ _

/-! ### RDDATA -/

theorem State.widenSlot_eq (s : State) (j : Nat) : s.widenSlot j =
    { s with raw := match Memory.read s.stage j with
      | some b => Memory.write s.raw j (widen b)
      | none => s.raw } := by
  unfold State.widenSlot
  cases Memory.read s.stage j <;> rfl

/-- The widening loop (44_sample R230): only `RAW` changes, and slot by slot it is what `STAGE` holds. -/
theorem State.widenFold_eq (js : List Nat) : ∀ s : State,
    js.foldl State.widenSlot s = { s with raw := (js.foldl State.widenSlot s).raw } ∧
    ∀ a, Memory.read (js.foldl State.widenSlot s).raw a =
      if a ∈ js then ((Memory.read s.stage a).map widen).or (Memory.read s.raw a) else Memory.read s.raw a := by
  induction js with
  | nil => intro s; exact ⟨rfl, fun a => by simp⟩
  | cons j js ih =>
    intro s
    obtain ⟨h1, h2⟩ := ih (s.widenSlot j)
    have hw := State.widenSlot_eq s j
    have hst : (s.widenSlot j).stage = s.stage := by rw [hw]
    have hraw : ∀ a, Memory.read (s.widenSlot j).raw a =
        if a = j then ((Memory.read s.stage a).map widen).or (Memory.read s.raw a) else Memory.read s.raw a := by
      intro a
      rw [hw]
      cases hr : Memory.read s.stage j with
      | none =>
        by_cases ha : a = j
        · subst ha; simp [hr]
        · simp [ha]
      | some b =>
        simp only [Memory.read_write]
        by_cases ha : a = j
        · subst ha; simp [hr]
        · simp [ha]
    refine ⟨?_, fun a => ?_⟩
    · simp only [List.foldl_cons]
      conv_lhs => rw [h1]
      rw [hw]
    · simp only [List.foldl_cons]
      rw [h2, hst, hraw]
      by_cases ha : a = j
      · subst ha
        by_cases hm : a ∈ js
        · cases hr : Memory.read s.stage a <;> simp [hm]
        · simp [hm]
      · by_cases hm : a ∈ js <;> simp [ha, hm]

/-- The widening loop keeps the canonical form of `RAW`, its size, and every slot at most 255 (44_sample R230). -/
theorem State.widenFold_raw (js : List Nat) (hjs : ∀ j ∈ js, j < Config.rawSlots) : ∀ s : State,
    Memory.wf s.raw → Memory.below Config.rawSlots s.raw → (∀ e ∈ s.raw, e.2.toNat ≤ 255) →
    Memory.wf (js.foldl State.widenSlot s).raw ∧ Memory.below Config.rawSlots (js.foldl State.widenSlot s).raw ∧
    ∀ e ∈ (js.foldl State.widenSlot s).raw, e.2.toNat ≤ 255 := by
  induction js with
  | nil => intro s h1 h2 h3; exact ⟨h1, h2, h3⟩
  | cons j js ih =>
    intro s h1 h2 h3
    have hw := State.widenSlot_eq s j
    rw [List.foldl_cons]
    refine ih (fun k hk => hjs k (List.mem_cons_of_mem _ hk)) _ ?_ ?_ ?_ <;> rw [hw] <;>
      cases hr : Memory.read s.stage j with
      | none => first | exact h1 | exact h2 | exact h3
      | some b => ?_
    · exact Memory.wf_write h1 j _
    · intro e he
      rcases Memory.mem_write he with rfl | he
      · exact hjs j (by simp)
      · exact h2 e he
    · intro e he
      rcases Memory.mem_write he with rfl | he
      · have : (widen b).toNat ≤ b.toNat := by
          simp only [widen, BitVec.toNat_setWidth]; exact Nat.mod_le _ _
        have := b.isLt
        show (widen b).toNat ≤ 255
        omega
      · exact h3 e he

/-- What RDDATA's reads leave (44_sample R230). -/
theorem State.stageRead_eq (s : State) : ∃ w : WorkRegs, State.stageLoop dataRegions (s.setOff 0) =
    (s.dataFrames.withStage (Memory.writeList s.stage 0 s.sampleBytes)).withWork w := by
  obtain ⟨w, h⟩ := State.stageLoop_eq dataRegions (s.setOff 0)
  rw [State.setOff_regionBytes, State.regionBytes_data] at h
  refine ⟨w, ?_⟩
  rw [h, State.setOff_withWork, State.withWork_regionFrames, State.regionFrames_data]
  rfl

/-- `RAW` after RDDATA (44_sample R230, R231), as the widening loop leaves it. -/
def State.widened (s : State) : Memory Slot :=
  ((s.dataFrames.withStage (Memory.writeList s.stage 0 s.sampleBytes)).widenAll).raw

theorem State.withWork_widenSlot (w : WorkRegs) (s : State) (j : Nat) :
    (s.withWork w).widenSlot j = (s.widenSlot j).withWork w := by
  simp only [State.widenSlot_eq]
  rfl

theorem State.withWork_widenFold (w : WorkRegs) (js : List Nat) : ∀ s : State,
    js.foldl State.widenSlot (s.withWork w) = (js.foldl State.widenSlot s).withWork w := by
  induction js with
  | nil => intro s; rfl
  | cons j js ih => intro s; simp only [List.foldl_cons]; rw [State.withWork_widenSlot, ih]

/-- The body of RDDATA (44_sample R230). -/
theorem State.sampleBody_eq (s : State) :
    s.sampleBody = State.complete (.bool true) { s.dataFrames with
      stage := Memory.writeList s.stage 0 s.sampleBytes, raw := s.widened } := by
  obtain ⟨w, h⟩ := State.stageRead_eq s
  have h2 := (State.widenFold_eq (List.range Config.rawSlots)
    (s.dataFrames.withStage (Memory.writeList s.stage 0 s.sampleBytes))).1
  simp only [State.sampleBody, State.widenAll]
  rw [h, State.withWork_widenFold, State.withWork_complete, h2]
  rfl

@[simp] theorem State.sampleBytes_length (s : State) : s.sampleBytes.length = 8 := by
  simp [State.sampleBytes]

@[simp] theorem State.trimBytes_length (s : State) (j : Nat) : (s.trimBytes j).length = 32 := by
  simp [State.trimBytes]

/-- What `RAW` holds after RDDATA (44_sample R230, R231). -/
theorem State.widened_read (s : State) (a : Nat) : Memory.read s.widened a =
    ((s.sampleBytes[a]?).map widen).or (Memory.read s.raw a) := by
  have h2 := (State.widenFold_eq (List.range Config.rawSlots)
    (s.dataFrames.withStage (Memory.writeList s.stage 0 s.sampleBytes))).2 a
  have hst : (s.dataFrames.withStage (Memory.writeList s.stage 0 s.sampleBytes)).stage =
    Memory.writeList s.stage 0 s.sampleBytes := rfl
  have hraw : (s.dataFrames.withStage (Memory.writeList s.stage 0 s.sampleBytes)).raw = s.raw := rfl
  rw [hst, hraw, Memory.read_writeList] at h2
  rw [State.widened, State.widenAll, h2]
  by_cases ha : a < 8
  · have hm : a ∈ List.range Config.rawSlots := List.mem_range.2 ha
    simp [hm, ha]
  · have hm : a ∉ List.range Config.rawSlots := fun h => ha (List.mem_range.1 h)
    have : s.sampleBytes[a]? = none := List.getElem?_eq_none (by simp; omega)
    simp [hm, this]

/-! ### The events of the frame sequences -/

/-- The events of the four trim frames, in order (42_calibration R180, R181), counted from an earlier state. -/
theorem State.trimFrames_ev {s t : State} (j : Nat) (hc : t.cfg = s.cfg)
    (h : ∀ i, t.answerByte i = s.answerByte (j + i)) : t.trimFrames.ev = t.ev ++
      frameEvents s.cfg (s.exchanges j (readBytes Config.tempDigAddr 6)) ++
      frameEvents s.cfg (s.exchanges (j + 7) (readBytes Config.pressDigAddr 18)) ++
      frameEvents s.cfg (s.exchanges (j + 26) (readBytes Config.humDigAddr1 1)) ++
      frameEvents s.cfg (s.exchanges (j + 28) (readBytes Config.humDigAddr2 7)) := by
  unfold State.trimFrames
  rw [State.framed_ev_from (s := s) (j := j + 28), State.framed_ev_from (s := s) (j := j + 26),
    State.framed_ev_from (s := s) (j := j + 7), State.framed_ev_from (s := s) (j := j)]
  all_goals first
    | exact hc
    | exact h
    | (intro i; simp only [State.framed_answerByte, readBytes_length, h]; exact congrArg s.answerByte (by omega))

/-- The events of the three register-initialisation writes, in order (43_identity R207), counted from an earlier state. -/
theorem State.initFrames_ev {s t : State} (j : Nat) (hc : t.cfg = s.cfg)
    (h : ∀ i, t.answerByte i = s.answerByte (j + i)) : t.initFrames.ev = t.ev ++
      frameEvents s.cfg (s.exchanges j (writeBytes Config.ctrlHumAddr (Config.ctrlHumByte s.cfg.settings))) ++
      frameEvents s.cfg (s.exchanges (j + 2) (writeBytes Config.ctrlMeasAddr (Config.ctrlMeasByte s.cfg.settings))) ++
      frameEvents s.cfg (s.exchanges (j + 4) (writeBytes Config.configAddr (Config.configByte s.cfg.settings))) := by
  unfold State.initFrames
  rw [State.framed_ev_from (s := s) (j := j + 4), State.framed_ev_from (s := s) (j := j + 2),
    State.framed_ev_from (s := s) (j := j), hc]
  all_goals first
    | exact hc
    | exact h
    | (intro i; simp only [State.framed_answerByte, writeBytes_length, h]; exact congrArg s.answerByte (by omega))

/-- The events of the three data frames, in order (44_sample R230). -/
theorem State.dataFrames_ev (s : State) : s.dataFrames.ev = s.ev ++
    frameEvents s.cfg (s.exchanges 0 (readBytes Config.pressAddr 3)) ++
    frameEvents s.cfg (s.exchanges 4 (readBytes Config.tempAddr 3)) ++
    frameEvents s.cfg (s.exchanges 8 (readBytes Config.humAddr 2)) := by
  unfold State.dataFrames
  rw [State.framed_ev_from (s := s) (j := 8), State.framed_ev_from (s := s) (j := 4),
    State.framed_ev_from (s := s) (j := 0)]
  all_goals first
    | rfl
    | (intro i; rw [Nat.zero_add])
    | (intro i; simp only [State.framed_answerByte, readBytes_length] <;> exact congrArg s.answerByte (by omega))

/-- The events of BEGIN's pin set-up and identity check (43_identity R206). -/
theorem State.checked_ev (s : State) : s.checked.ev = s.ev ++ setupEvents s.cfg ++
    frameEvents s.cfg (s.exchanges 0 (readBytes Config.idAddr 1)) := by
  show (s.configured.framed (readBytes Config.idAddr 1)).ev = _
  exact State.framed_ev_from (s := s) (t := s.configured) (j := 0) _ rfl
    fun i => by rw [State.configured_answerByte, Nat.zero_add]

end Sys2Proof.Machine
end

