-- ==== Sys2Proof/Laws/Step.lean ====
section
/-! SUPPORT. What a step can do, once. -/

namespace Sys2Proof.Machine

/-- A read from outside that has a next state hands something out, or takes the fault `UndefRead`. -/
theorem hostRead_next {r : ReadReq} {s t : State} (h : hostRead r s = .next t) : ∃ o, t = s.handOut o := by
  cases r <;> simp only [hostRead] at h
  all_goals first
    | exact ⟨_, (Host.Outcome.next.inj h).symm⟩
    | (split at h
       · exact ⟨_, (Host.Outcome.next.inj h).symm⟩
       · cases h)

/-- A step that has a next state: the instance is live, and it waits, runs an instruction, refuses a reserved word, or answers
a read. -/
theorem step_next {s t : State} (h : step s = .next t) : s.refused = none ∧ s.fault = none ∧
    ((s.pending = [] ∧ t = s) ∨
     (∃ c i rest, s.pending = .code c :: rest ∧ decode c = .ok i ∧ exec i { s with pending := rest } = .next t) ∨
     (∃ c e rest, s.pending = .code c :: rest ∧ decode c = .error e ∧
       t = { s with pending := rest, refused := some .reservedEncoding }) ∨
     (∃ r rest, s.pending = .read r :: rest ∧ hostRead r { s with pending := rest } = .next t)) := by
  unfold step fetch at h
  cases hr : s.refused with
  | some r => rw [hr] at h; cases h
  | none =>
    rw [hr] at h
    cases hf : s.fault with
    | some f => rw [hf] at h; cases h
    | none =>
      rw [hf] at h
      refine ⟨rfl, rfl, ?_⟩
      cases hp : s.pending with
      | nil => rw [hp] at h; exact .inl ⟨rfl, (Host.Outcome.next.inj h).symm⟩
      | cons x rest =>
        rw [hp] at h
        cases x with
        | code c =>
          cases hd : decode c with
          | ok i => simp only [hd] at h; exact .inr (.inl ⟨c, i, rest, rfl, hd, h⟩)
          | error e =>
            simp only [hd] at h
            exact .inr (.inr (.inl ⟨c, e, rest, rfl, hd, (Host.Outcome.next.inj h).symm⟩))
        | read r => exact .inr (.inr (.inr ⟨r, rest, rfl, h⟩))

end Sys2Proof.Machine
end

