-- ==== Sys2Proof/Laws/Instructions.lean ====
section
/-! SUPPORT. Each instruction in the closed forms of Machine/Observe.lean, and from them the one list of what an instruction
that has a next state can do: lemmas about every instruction start from `exec_next`. -/

namespace Sys2Proof.Machine

theorem exec_xfer8_ready {s : State} (tx : Byte) (h : s.pinsReady = true) :
    exec (.xfer8 tx) s = .next ((s.sent [tx]).complete (.byte (s.answerByte 0))) := by
  simp only [exec, execXfer8, State.withPins_ready h, State.xferByte_eq, State.xferB_sent, State.withWork_complete]

theorem exec_rread_ready {s : State} (addr : Byte) (n : Nat) (h : s.pinsReady = true) :
    exec (.rread addr n) s = .next ((s.framed (readBytes addr n)).complete (.bytes (s.answerBytes 1 n))) := by
  simp only [exec, execRread, State.withPins_ready h]
  rw [State.readFrame_state, State.readFrame_bytes, State.withWork_complete]

theorem exec_rwrite_ready {s : State} (addr d : Byte) (h : s.pinsReady = true) :
    exec (.rwrite addr d) s = .next ((s.framed (writeBytes addr d)).complete .nothing) := by
  simp only [exec, execRwrite, State.withPins_ready h]
  rw [State.writeFrame_state, State.withWork_complete]

theorem exec_pincfg_eq (s : State) : exec .pincfg s = .next (s.configured.complete .nothing) := by
  simp only [exec, execPincfg, State.pinSetup_eq]

theorem exec_idchk_ready {s : State} (h : s.pinsReady = true) :
    exec .idchk s = .next (s.identified.complete (.bool (idMatches (s.answerByte 1)))) := by
  obtain ⟨w, hw⟩ := State.idCheck_eq s
  simp only [exec, execIdchk, State.withPins_ready h]
  rw [hw, State.withWork_complete]
  rfl

theorem exec_rdtrim_ready {s : State} (h : s.pinsReady = true) : exec .rdtrim s =
    .next ((s.trimFrames.withTrim (Memory.writeList s.trim 0 (s.trimBytes 0))).complete (.bool true)) := by
  obtain ⟨w, -, hr⟩ := State.readTrim_eq s
  simp only [exec, execRdtrim, State.withPins_ready h, State.readTrim_ok]
  rw [hr, State.withWork_complete]

theorem exec_begin_eq (s : State) : exec .begin s =
    .next (if idMatches (s.answerByte 1) then s.loaded.finishBegin true else s.checked.finishBegin false) := by
  simp only [exec, execBegin]
  cases h : idMatches (s.answerByte 1)
  · rw [State.beginBody_mismatch h, if_neg (by decide)]
  · rw [State.beginBody_match h, if_pos rfl]

/-- What RDDATA leaves in READY (44_sample R230), but for the result and the working registers. -/
def State.sampled8 (s : State) : State :=
  { s.dataFrames with stage := Memory.writeList s.stage 0 s.sampleBytes, raw := s.widened }

theorem exec_rddata_ready {s : State} (hp : s.phase = .ready) (h : s.pinsReady = true) :
    exec .rddata s = .next (s.sampled8.complete (.bool true)) := by
  simp only [exec, execRddata, hp, if_true, State.withPins_ready h]
  rw [State.sampleBody_eq]
  rfl

theorem exec_frameRdHdr_eq (s : State) (a : BitVec 7) :
    exec (.frameRdHdr a) s = .next (s.sent [1#1 ++ a]).settle := by
  simp only [exec, execFrameRdHdr]
  rw [State.sendHeader_sent, State.withWork_settle]

theorem exec_frameWrHdr_eq (s : State) (a : BitVec 7) :
    exec (.frameWrHdr a) s = .next (s.sent [0#1 ++ a]).settle := by
  simp only [exec, execFrameWrHdr]
  rw [State.sendHeader_sent, State.withWork_settle]

/-- An instruction that raised a fault: which it can be, and in which states. -/
structure Raised (i : Instr) (s t : State) : Prop where
  state     : ∃ r w, t = s.raise r w
  notBegin  : i ≠ .begin
  notPincfg : i ≠ .pincfg
  notHeader : ∀ a, i ≠ .frameRdHdr a ∧ i ≠ .frameWrHdr a
  unready   : s.pinsReady = false ∨ (i = .rddata ∧ s.phase ≠ .ready)

/-- What an instruction that has a next state did. -/
inductive Did (i : Instr) (s t : State) : Prop where
  | raised (h : Raised i s t)
  | xfer8 (tx : Byte) (h : s.pinsReady = true) (hi : i = .xfer8 tx)
      (ht : t = (s.sent [tx]).complete (.byte (s.answerByte 0)))
  | rread (addr : Byte) (n : Nat) (h : s.pinsReady = true) (hi : i = .rread addr n)
      (ht : t = (s.framed (readBytes addr n)).complete (.bytes (s.answerBytes 1 n)))
  | rwrite (addr d : Byte) (h : s.pinsReady = true) (hi : i = .rwrite addr d)
      (ht : t = (s.framed (writeBytes addr d)).complete .nothing)
  | pincfg (hi : i = .pincfg) (ht : t = s.configured.complete .nothing)
  | idchk (h : s.pinsReady = true) (hi : i = .idchk)
      (ht : t = s.identified.complete (.bool (idMatches (s.answerByte 1))))
  | rdtrim (h : s.pinsReady = true) (hi : i = .rdtrim)
      (ht : t = (s.trimFrames.withTrim (Memory.writeList s.trim 0 (s.trimBytes 0))).complete (.bool true))
  | beginOk (h : idMatches (s.answerByte 1) = true) (hi : i = .begin) (ht : t = s.loaded.finishBegin true)
  | beginNo (h : idMatches (s.answerByte 1) = false) (hi : i = .begin) (ht : t = s.checked.finishBegin false)
  | rddata (hp : s.phase = .ready) (h : s.pinsReady = true) (hi : i = .rddata)
      (ht : t = s.sampled8.complete (.bool true))
  | header (a : BitVec 7) (b : Byte) (hi : i = .frameRdHdr a ∨ i = .frameWrHdr a) (ht : t = (s.sent [b]).settle)

/-- Every instruction has one of these outcomes. -/
theorem exec_next {i : Instr} {s t : State} (h : exec i s = .next t) : Did i s t := by
  have out : ∀ {u}, exec i s = .next u → t = u := fun hu => Host.Outcome.next.inj (h.symm.trans hu)
  cases hr : s.pinsReady
  · cases i with
    | xfer8 tx =>
      exact .raised ⟨⟨.pinsUnconfigured, commandWord (.xfer8 tx),
        out (by simp only [exec, execXfer8, State.withPins_unready hr])⟩, by simp, by simp, by simp, .inl hr⟩
    | rread a n =>
      exact .raised ⟨⟨.pinsUnconfigured, commandWord (.rread a n),
        out (by simp only [exec, execRread, State.withPins_unready hr])⟩, by simp, by simp, by simp, .inl hr⟩
    | rwrite a d =>
      exact .raised ⟨⟨.pinsUnconfigured, commandWord (.rwrite a d),
        out (by simp only [exec, execRwrite, State.withPins_unready hr])⟩, by simp, by simp, by simp, .inl hr⟩
    | idchk =>
      exact .raised ⟨⟨.pinsUnconfigured, commandWord .idchk,
        out (by simp only [exec, execIdchk, State.withPins_unready hr])⟩, by simp, by simp, by simp, .inl hr⟩
    | rdtrim =>
      exact .raised ⟨⟨.pinsUnconfigured, commandWord .rdtrim,
        out (by simp only [exec, execRdtrim, State.withPins_unready hr])⟩, by simp, by simp, by simp, .inl hr⟩
    | rddata =>
      by_cases hp : s.phase = .ready
      · exact .raised ⟨⟨.pinsUnconfigured, commandWord .rddata,
          out (by simp only [exec, execRddata, hp, if_true, State.withPins_unready hr])⟩,
          by simp, by simp, by simp, .inl hr⟩
      · exact .raised ⟨⟨.notReady, commandWord .rddata, out (by simp only [exec, execRddata, if_neg hp])⟩,
          by simp, by simp, by simp, .inl hr⟩
    | pincfg => exact .pincfg rfl (out (exec_pincfg_eq s))
    | begin =>
      have e := out (exec_begin_eq s)
      cases hm : idMatches (s.answerByte 1) <;> rw [hm] at e
      · exact .beginNo hm rfl e
      · exact .beginOk hm rfl e
    | frameRdHdr a => exact .header a _ (.inl rfl) (out (exec_frameRdHdr_eq s a))
    | frameWrHdr a => exact .header a _ (.inr rfl) (out (exec_frameWrHdr_eq s a))
  · cases i with
    | xfer8 tx => exact .xfer8 tx hr rfl (out (exec_xfer8_ready tx hr))
    | rread a n => exact .rread a n hr rfl (out (exec_rread_ready a n hr))
    | rwrite a d => exact .rwrite a d hr rfl (out (exec_rwrite_ready a d hr))
    | idchk => exact .idchk hr rfl (out (exec_idchk_ready hr))
    | rdtrim => exact .rdtrim hr rfl (out (exec_rdtrim_ready hr))
    | rddata =>
      by_cases hp : s.phase = .ready
      · exact .rddata hp hr rfl (out (exec_rddata_ready hp hr))
      · exact .raised ⟨⟨.notReady, commandWord .rddata, out (by simp only [exec, execRddata, if_neg hp])⟩,
          by simp, by simp, by simp, .inr ⟨rfl, hp⟩⟩
    | pincfg => exact .pincfg rfl (out (exec_pincfg_eq s))
    | begin =>
      have e := out (exec_begin_eq s)
      cases hm : idMatches (s.answerByte 1) <;> rw [hm] at e
      · exact .beginNo hm rfl e
      · exact .beginOk hm rfl e
    | frameRdHdr a => exact .header a _ (.inl rfl) (out (exec_frameRdHdr_eq s a))
    | frameWrHdr a => exact .header a _ (.inr rfl) (out (exec_frameWrHdr_eq s a))

end Sys2Proof.Machine
end

