-- ==== Sys2Proof/Laws/PerInstr.lean ====
section
/-! SUPPORT. Per-instruction statements: every encoding lies in its row of the match and mask table. -/

namespace Sys2Proof.Laws.RowMatch

/-- An instruction's encoding is a word of its row of 30_encoding R98, or, for a wire header, a byte whose bit 7 is the
read indicator of 30_encoding R91. -/
def Statement (i : Sys2Proof.Instr) : Prop :=
  match Sys2Proof.encode i with
  | .command w => ∃ r, Sys2Proof.rowOf i = some r ∧ r ∈ Sys2Proof.opRows ∧ w &&& r.maskWord = r.matchWord
  | .header b  => Sys2Proof.rowOf i = none ∧ (b.getLsbD 7 = true ↔ ∃ a, i = .frameRdHdr a)

open Sys2Proof

/-- A mask by fields keeps what it covers of a command word's fields. -/
theorem mask_fields (op : BitVec 4) (a b mr ma mb : BitVec 8) (m0 mo : BitVec 4) :
    (commandOf op a b &&& (mr ++ mb ++ ma ++ m0 ++ mo : BitVec (8 + 8 + 8 + 4 + 4)) : BitVec (8 + 8 + 8 + 4 + 4)) =
      0#8 ++ (b &&& mb) ++ (a &&& ma) ++ 0#4 ++ (op &&& mo) := by
  show (0#8 ++ b ++ a ++ 0#4 ++ op : BitVec (8 + 8 + 8 + 4 + 4)) &&& _ = _
  simp only [BitVec.and_append, BitVec.zero_and]

theorem op_mask : ∀ op : BitVec 4, op &&& 0xF#4 = op := by decide

/-- The mask of XFER8's row keeps `OP`, the reserved fields and `A`. -/
theorem mask_b (op : BitVec 4) (b : Byte) : commandOf op 0 b &&& 0xFF00FFFF#32 = commandOf op 0 0 := by
  have h := mask_fields op 0#8 b 0xFF#8 0xFF#8 0#8 0xF#4 0xF#4
  rw [BitVec.and_zero, BitVec.zero_and, op_mask] at h
  exact h

/-- The mask of the rows of RREAD and RWRITE keeps `OP` and the reserved fields. -/
theorem mask_ab (op : BitVec 4) (a b : Byte) : commandOf op a b &&& 0xFF0000FF#32 = commandOf op 0 0 := by
  have h := mask_fields op a b 0xFF#8 0#8 0#8 0xF#4 0xF#4
  rw [BitVec.and_zero, BitVec.and_zero, op_mask] at h
  exact h

theorem xfer8 (tx : Byte) : Statement (.xfer8 tx) := ⟨rowXfer8, rfl, by decide, mask_b 0 tx⟩

theorem rread (addr : Byte) (n : Nat) : Statement (.rread addr n) :=
  ⟨rowRread, rfl, by decide, mask_ab 1 addr (BitVec.ofNat 8 n)⟩

theorem rwrite (addr d : Byte) : Statement (.rwrite addr d) := ⟨rowRwrite, rfl, by decide, mask_ab 2 addr d⟩

theorem pincfg : Statement .pincfg := ⟨rowPincfg, rfl, by decide, by decide⟩

theorem idchk : Statement .idchk := ⟨rowIdchk, rfl, by decide, by decide⟩

theorem rdtrim : Statement .rdtrim := ⟨rowRdtrim, rfl, by decide, by decide⟩

theorem begin : Statement .begin := ⟨rowBegin, rfl, by decide, by decide⟩

theorem rddata : Statement .rddata := ⟨rowRddata, rfl, by decide, by decide⟩

theorem frameRdHdr (a : BitVec 7) : Statement (.frameRdHdr a) := by
  refine ⟨rfl, fun _ => ⟨a, rfl⟩, fun _ => ?_⟩
  revert a
  decide

theorem frameWrHdr (a : BitVec 7) : Statement (.frameWrHdr a) := by
  refine ⟨rfl, fun h => absurd h ?_, fun h => absurd h (by simp)⟩
  revert a
  decide

end Sys2Proof.Laws.RowMatch
end

