-- ==== Sys2Proof/Tests/Slice0.lean ====
section
/-! SUPPORT. Tests against the worked vectors of spec/95_test_vectors.md, and for every statement with hypotheses a state and
operands that meet them (`witness_` and the statement's name). -/

open Sys2Proof Sys2Proof.Machine

namespace Sys2Proof.Tests

/-! ## Small states -/

/-- The next state of an outcome, where it has one. -/
def nextOf : Host.Outcome State Fault Refusal → Option State
  | .next s => some s
  | .fault _ => none
  | .refused _ => none

/-- `CFG_SW`, constructed, with the pins as V-T7 leaves them and no events. -/
def swReady : State :=
  { State.reset with
    pins := { Pins.constructed with
      latCs := some true, dirCs := .output, dirSck := .output, dirMosi := .output, dirMiso := .input } }

/-- `CFG_HW`, constructed. -/
def hwBase : State := State.construct (DeviceConfig.hardware (.gpio 0) Config.resetConfig.settings)

/-- `CFG_HW` with the pins as V-T8 leaves them and no events. -/
def hwReady : State :=
  { hwBase with pins := { Pins.constructed with latCs := some true, dirCs := .output }, hwStarted := true }

/-- A byte that is neither of the two accepted IDs, whatever they are. -/
def strangeId : Byte :=
  if 0 ≠ Config.chipIdFull ∧ 0 ≠ Config.chipIdReduced then 0
  else if 1 ≠ Config.chipIdFull ∧ 1 ≠ Config.chipIdReduced then 1
  else 2

theorem strangeId_ne : strangeId ≠ Config.chipIdFull ∧ strangeId ≠ Config.chipIdReduced := by
  unfold strangeId
  generalize Config.chipIdFull = a, Config.chipIdReduced = b
  split
  · assumption
  · split
    · assumption
    · next h0 h1 =>
      constructor <;> rintro rfl <;> simp at h0 h1 <;> subst h0 <;> simp at h1

/-- A hardware instance whose slave answers an accepted ID. -/
def goodSlave : State := { hwBase with slaveBytes := [0xFF, Config.chipIdFull] }

/-- A hardware instance whose slave answers another ID. -/
def badSlave : State := { hwBase with slaveBytes := [0xFF, strangeId] }

/-! ## WellFormed -/

theorem test_wellFormed_longest_read : (Instr.rread 0xFF 255).wellFormed = true := by decide
theorem test_illFormed_read_too_long : (Instr.rread 0xFF 256).wellFormed = false := by decide
theorem test_wellFormed_software : Config.resetConfig.wellFormed = true := by decide
theorem test_wellFormed_hardware : hwBase.cfg.wellFormed = true := by decide

/-- V-E9: `MOSI_PIN = CS_PIN`. -/
theorem test_illFormed_mosi_is_cs :
    (DeviceConfig.software (.gpio 0) (.gpio 1) (.gpio 0) (.gpio 3) Config.resetConfig.settings).wellFormed = false := by
  decide

theorem test_illFormed_sck_is_cs :
    (DeviceConfig.software (.gpio 0) (.gpio 0) (.gpio 2) (.gpio 3) Config.resetConfig.settings).wellFormed = false := by
  decide

theorem test_illFormed_miso_is_cs :
    (DeviceConfig.software (.gpio 0) (.gpio 1) (.gpio 2) (.gpio 0) Config.resetConfig.settings).wellFormed = false := by
  decide

theorem test_illFormed_sck_is_mosi :
    (DeviceConfig.software (.gpio 0) (.gpio 1) (.gpio 1) (.gpio 3) Config.resetConfig.settings).wellFormed = false := by
  decide

theorem test_illFormed_sck_is_miso :
    (DeviceConfig.software (.gpio 0) (.gpio 1) (.gpio 2) (.gpio 1) Config.resetConfig.settings).wellFormed = false := by
  decide

theorem test_illFormed_mosi_is_miso :
    (DeviceConfig.software (.gpio 0) (.gpio 1) (.gpio 2) (.gpio 2) Config.resetConfig.settings).wellFormed = false := by
  decide

/-- V-E10: `MISO_PIN = PIN_UNSET`, the others distinct. -/
theorem test_illFormed_miso_unset :
    (DeviceConfig.software (.gpio 0) (.gpio 1) (.gpio 2) .unset Config.resetConfig.settings).wellFormed = false := by
  decide

theorem test_illFormed_sck_unset :
    (DeviceConfig.software (.gpio 0) .unset (.gpio 2) (.gpio 3) Config.resetConfig.settings).wellFormed = false := by
  decide

theorem test_illFormed_cs_unset :
    (DeviceConfig.software .unset (.gpio 1) (.gpio 2) (.gpio 3) Config.resetConfig.settings).wellFormed = false := by
  decide

/-- `MOSI_PIN = PIN_UNSET` selects hardware, and then `SCK_PIN` must be unset too. -/
theorem test_illFormed_mosi_unset_sck_set :
    (DeviceConfig.software (.gpio 0) (.gpio 1) .unset (.gpio 3) Config.resetConfig.settings).wellFormed = false := by
  decide

theorem test_illFormed_hardware_cs_unset :
    (DeviceConfig.hardware .unset Config.resetConfig.settings).wellFormed = false := by
  decide

/-! ## Decoding: words written out field by field, RSV1, B, A, RSV0, OP (30_encoding R94) -/

theorem test_decode_xfer8 : decodeTableWord 32 0b00000000_10100101_00000000_0000_0000 = some (.xfer8 0xA5) := by decide
theorem test_decode_rread : decodeTableWord 32 0b00000000_00000001_11010000_0000_0001 = some (.rread 0xD0 1) := by decide
theorem test_decode_rwrite : decodeTableWord 32 0b00000000_00100111_11110100_0000_0010 = some (.rwrite 0xF4 0x27) := by
  decide
theorem test_decode_pincfg : decodeTableWord 32 0b00000000_00000000_00000000_0000_0011 = some .pincfg := by decide
theorem test_decode_idchk : decodeTableWord 32 0b00000000_00000000_00000000_0000_0100 = some .idchk := by decide
theorem test_decode_rdtrim : decodeTableWord 32 0b00000000_00000000_00000000_0000_0101 = some .rdtrim := by decide
theorem test_decode_begin : decodeTableWord 32 0b00000000_00000000_00000000_0000_0110 = some .begin := by decide
theorem test_decode_rddata : decodeTableWord 32 0b00000000_00000000_00000000_0000_0111 = some .rddata := by decide
theorem test_decode_frameRdHdr : decodeTableWord 8 0b1_1010000 = some (.frameRdHdr 0x50) := by decide
theorem test_decode_frameWrHdr : decodeTableWord 8 0b0_1110100 = some (.frameWrHdr 0x74) := by decide

/-- V-D4 and V-D5: the ends of the read length. -/
theorem test_decode_read_lengths : decodeTableWord 32 0x00005001 = some (.rread 0x50 0) ∧
    decodeTableWord 32 0x00FFFF01 = some (.rread 0xFF 255) := by decide

/-- V-E3 to V-E7, V-D10 to V-D12. -/
theorem test_decode_reserved : decode (.command 0x00000008) = .error .reservedOp ∧
    decode (.command 0x00010003) = .error .unusedField ∧ decode (.command 0x00000010) = .error .reservedField ∧
    decode (.command 0x01000001) = .error .reservedField ∧ decode (.command 0x00000100) = .error .unusedField ∧
    decode (.command 0x0000000F) = .error .reservedOp ∧ decode (.command 0xFFFFFFFF) = .error .reservedField ∧
    decode (.command 0x00000103) = .error .unusedField := by decide

theorem test_encode : encode (.rwrite 0xF4 0x27) = .command 0x0027F402 ∧ encode (.rread 0xFD 255) = .command 0x00FFFD01 ∧
    encode (.xfer8 0xFF) = .command 0x00FF0000 ∧ encode .rddata = .command 0x00000007 := by decide

/-- W7: the header masks. -/
theorem test_headers : [0x00#8, 0x50#8, 0x7F#8, 0x80#8, 0xD0#8, 0xF4#8, 0xFF#8].map (fun a => (readHeader a, writeHeader a)) =
    [(0x80#8, 0x00#8), (0xD0#8, 0x50#8), (0xFF#8, 0x7F#8), (0x80#8, 0x00#8), (0xD0#8, 0x50#8), (0xF4#8, 0x74#8),
      (0xFF#8, 0x7F#8)] := by decide

/-! ## Assembler (30_encoding R100 to R102) -/

theorem test_asm_rwrite : asmLine "rwrite 0xF4, 0x27  ; V-F8".toList = .ok (some (.rwrite 0xF4 0x27)) := by decide
theorem test_asm_decimal : asmLine "  rread 208, 1".toList = .ok (some (.rread 0xD0 1)) := by decide
theorem test_asm_too_wide : asmLine "xfer8 256".toList = .error .tooWide := by decide
theorem test_asm_comment : asmLine "; nothing".toList = .ok none := by decide
theorem test_asm_symbol : asmLine "rread PRESS_ADDR, 3".toList = .ok (some (.rread Config.pressAddr 3)) := by rfl

/-! ## Operations -/

/-- V-T1. -/
theorem test_xfer8_software :
    (nextOf (execXfer8 0xA5 { swReady with slaveBits := [false, false, true, true, true, true, false, false] })).map
      (fun t => (t.results, t.ev.length, t.pins.latSck, t.pins.latMosi, t.pins.latCs)) =
    some ([.byte 0x3C], 32, some true, some true, some true) := by decide

/-- V-T4: the first sample lands in bit 7. -/
theorem test_xfer8_first_sample_high :
    (nextOf (execXfer8 0x01 { swReady with slaveBits := [true, false, false, false, false, false, false, false] })).map
      (fun t => (t.results, t.ev.take 4, t.pins.latMosi)) =
    some ([.byte 0x80], [.drive (.gpio 1) false, .drive (.gpio 2) false, .drive (.gpio 1) true, .sample (.gpio 3) true],
      some true) := by decide

/-- V-T6. -/
theorem test_xfer8_hardware : (nextOf (execXfer8 0xA5 { hwReady with slaveBytes := [0x3C] })).map
    (fun t => (t.results, t.ev)) = some ([.byte 0x3C], [.hwXfer 0xA5 0x3C]) := by decide

/-- V-E1: the fault records the reason and the word; no event. -/
theorem test_xfer8_unready : step (State.reset.place (.command 0x00A50000)) =
    .next { State.reset with fault := some { reason := .pinsUnconfigured, word := some 0x00A50000 } } := by rfl

/-- V-T7. -/
theorem test_pincfg_software : (nextOf (execPincfg State.reset)).map (fun t => (t.ev, t.pins, t.hwStarted)) =
    some ([.drive (.gpio 0) true, .dir (.gpio 0) .output, .dir (.gpio 1) .output, .dir (.gpio 2) .output,
      .dir (.gpio 3) .input], swReady.pins, false) := by decide

/-- V-T8. -/
theorem test_pincfg_hardware : (nextOf (execPincfg hwBase)).map (fun t => (t.ev, t.pins, t.hwStarted, t.pinsReady)) =
    some ([.drive (.gpio 0) true, .dir (.gpio 0) .output, .hwStart], hwReady.pins, true, true) := by decide

/-- V-F6. -/
theorem test_rread_hardware : (nextOf (execRread 0xD0 1 { hwReady with slaveBytes := [0xFF, 0x60] })).map
    (fun t => (t.ev, t.results, t.hwInTxn)) =
    some ([.hwBegin 500000 .msbFirst .mode0, .drive (.gpio 0) false, .hwXfer 0xD0 0xFF, .hwXfer 0x00 0x60,
      .drive (.gpio 0) true, .hwEnd], [.bytes [0x60]], false) := by decide

/-- V-F4: no dummy byte, so MOSI ends at bit 0 of the header. -/
theorem test_rread_software_empty : (nextOf (execRread 0x01 0 { swReady with slaveBits := [true] })).map
    (fun t => (t.ev.length, t.results, t.pins.latMosi, t.pins.latCs)) =
    some (34, [.bytes []], some true, some true) := by rfl

/-- V-F12. -/
theorem test_rwrite_hardware : (nextOf (execRwrite 0xF4 0x27 { hwReady with slaveBytes := [0xFF, 0xFE] })).map
    (fun t => (t.ev, t.results)) =
    some ([.hwBegin 500000 .msbFirst .mode0, .drive (.gpio 0) false, .hwXfer 0x74 0xFF, .hwXfer 0x27 0xFE,
      .drive (.gpio 0) true, .hwEnd], [.nothing]) := by decide

/-- V-F8: the MOSI bits. -/
theorem test_rwrite_software : (nextOf (execRwrite 0xF4 0x27 swReady)).map
    (fun t => (drivenBits swReady.cfg t.ev, t.pins.latMosi)) =
    some ([false, true, true, true, false, true, false, false, false, false, true, false, false, true, true, true],
      some true) := by rfl

set_option maxRecDepth 4000 in
/-- V-C1 in hardware: where the first and last byte of each region land. -/
theorem test_rdtrim : (nextOf (execRdtrim { hwReady with slaveBytes :=
      [0xFF, 1, 2, 3, 4, 5, 6] ++ [0xFF, 7, 8, 9, 10, 11, 12, 13, 14, 15, 16, 17, 18, 19, 20, 21, 22, 23, 24] ++
      [0xFF, 25] ++ [0xFF, 26, 27, 28, 29, 30, 31, 32] })).map
    (fun t => ([0, 5, 6, 23, 24, 25, 31].map (Memory.read t.trim), t.results, t.ev.length)) =
    some ([some 1, some 6, some 7, some 24, some 25, some 26, some 32], [.bool true], 52) := by rfl

/-- V-I10 in short: an accepted ID gives READY, true, and 79 events. -/
theorem test_begin_match : (nextOf (execBegin goodSlave)).map (fun t => (t.phase, t.results, t.ev.length)) =
    some (.ready, [.bool true], 79) := by
  have h : idMatches (goodSlave.answerByte 1) = true := by
    show idMatches Config.chipIdFull = true
    simp [idMatches]
  have e := exec_begin_eq goodSlave
  rw [if_pos h] at e
  rw [show execBegin goodSlave = _ from e]
  rfl

/-- V-I11 in short: another ID gives UNUSABLE, false, and 9 events. -/
theorem test_begin_mismatch : (nextOf (execBegin badSlave)).map (fun t => (t.phase, t.results, t.ev.length, t.trim)) =
    some (.unusable, [.bool false], 9, []) := by
  have h : ¬ idMatches (badSlave.answerByte 1) = true := by
    show ¬ idMatches strangeId = true
    simp [idMatches, strangeId_ne]
  have e := exec_begin_eq badSlave
  rw [if_neg h] at e
  rw [show execBegin badSlave = _ from e]
  rfl

/-- The identity check keeps the byte it read and reports whether it matched. -/
theorem test_idchk : (nextOf (execIdchk { hwReady with slaveBytes := [0xFF, strangeId] })).map
    (fun t => (t.chipId, t.results)) = some (some strangeId, [.bool false]) := by
  have h : idMatches strangeId = false := by simp [idMatches, strangeId_ne]
  rw [← h]
  rfl

/-- V-S2 in hardware: the bytes in `STAGE`, the slots in `RAW`. -/
theorem test_rddata : (nextOf (execRddata { hwReady with
      phase := .ready
      slaveBytes := [0xFF, 0x65, 0x5A, 0xC0, 0xFF, 0x7E, 0xED, 0x00, 0xFF, 0x6B, 0x8A] })).map
    (fun t => ((List.range 8).map (Memory.read t.stage), (List.range 8).map (Memory.read t.raw), t.results,
      t.ev.length)) =
    some ([0x65, 0x5A, 0xC0, 0x7E, 0xED, 0x00, 0x6B, 0x8A].map some,
      [0x65, 0x5A, 0xC0, 0x7E, 0xED, 0x00, 0x6B, 0x8A].map (fun b => some (widen b)), [.bool true], 23) := by rfl

/-- V-S1. -/
theorem test_rddata_uninit : step (State.reset.place (.command 0x00000007)) =
    .next { State.reset with fault := some { reason := .notReady, word := some 0x00000007 } } := by rfl

/-- The header of V-F8 alone. -/
theorem test_frameWrHdr : (nextOf (execFrameWrHdr 0x74 { hwReady with slaveBytes := [0xFF] })).map
    (fun t => (t.ev, t.results)) = some ([.hwXfer 0x74 0xFF], []) := by decide

/-- The header of V-F6 alone. -/
theorem test_frameRdHdr : (nextOf (execFrameRdHdr 0x50 { hwReady with slaveBytes := [0xFF] })).map
    (fun t => (t.ev, t.results)) = some ([.hwXfer 0xD0 0xFF], []) := by decide

/-- V-E3 and V-E8: a reserved word is refused, before any fault. -/
theorem test_reserved_refused : step (State.reset.place (.command 0x000000F0)) =
    .next { State.reset with refused := some .reservedEncoding } := by rfl

/-- V-E9: no command has a step. -/
theorem test_malformed_has_no_step : step ((State.construct
    (DeviceConfig.software (.gpio 0) (.gpio 1) (.gpio 0) (.gpio 3) Config.resetConfig.settings)).place (.command 3)) =
    .refused (.noMeaning .malformedConfig) := by rfl

/-- A faulted block takes no further operation (R243). -/
theorem test_faulted_stops : step { State.reset with fault := some ⟨.notReady, some 7⟩, pending := [.code (.command 3)] } =
    .fault (.quiescent ⟨.notReady, some 7⟩) := by rfl

/-- R63 and R39: what is written is read, an UNDEF byte faults. -/
theorem test_read_trim : (nextOf (hostRead (.trim 1 2) { State.reset with trim := [(1, 0xAA), (2, 0xBB)] })).map
    (fun t => (t.results, t.fault)) = some ([.bytes [0xAA, 0xBB]], none) ∧
    (nextOf (hostRead (.trim 0 2) { State.reset with trim := [(1, 0xAA), (2, 0xBB)] })).map
    (fun t => (t.results, t.fault)) = some ([], some ⟨.undefRead, none⟩) := by decide

/-- A buffer stays sorted, and a second write to an offset replaces the first. -/
theorem test_memory : Memory.write (Memory.write (Memory.write ([] : Memory Byte) 5 1) 3 2) 5 9 = [(3, 2), (5, 9)] ∧
    Memory.wf ([(3, 2), (5, 9)] : Memory Byte) ∧ ¬ Memory.wf ([(5, 9), (3, 2)] : Memory Byte) := by decide

/-! ## Witnesses: states and operands that meet the hypotheses of each statement -/

/-- `CFG_SW` with pins ready and `PHASE` READY. -/
def swPhase : State := { swReady with phase := .ready }

/-- `CFG_HW` with pins ready and `PHASE` READY. -/
def hwPhase : State := { hwReady with phase := .ready }

/-- A live instance with a command placed. -/
def placed (w : Cmd) : State := State.reset.place (.command w)

/-- A refused configuration. -/
def badConfig : DeviceConfig := DeviceConfig.software (.gpio 0) (.gpio 1) (.gpio 0) (.gpio 3) Config.resetConfig.settings

theorem witness_ConstructionValues : (1 ≤ 1 ∧ 0 + 1 ≤ 32) ∧ (1 ≤ 32 ∧ 0 + 32 ≤ 32) ∧ (1 ≤ 1 ∧ 31 + 1 ≤ 32) ∧ 0 < 8 ∧ 7 < 8 := by
  decide

theorem witness_OneTransportPerInstance : (∃ t, step (placed 3) = .next t) ∧ hwBase.transport = .hw := ⟨⟨_, rfl⟩, rfl⟩

theorem witness_MalformedConfigIsRefused : (State.construct badConfig).refused = some .malformedConfig ∧
    (State.construct hwBase.cfg).refused = none ∧ State.reset.refused = none := by decide

theorem witness_DecodeEncode : (Instr.rread 0xFF 255).wellFormed = true ∧ (Instr.rread 0x00 0).wellFormed = true ∧
    (Instr.frameRdHdr 0x7F).wellFormed = true := by decide

theorem witness_EncodeDecode : decode (.command 0x00FFFF01) = .ok (.rread 0xFF 255) ∧
    decode (.header 0xFF) = .ok (.frameRdHdr 0x7F) := by decide

/-- A word for each way to be reserved, at the ends of its range, and two words that are not. -/
theorem witness_ReservedWordsAreRefused :
    8 ≤ ((0x00000008#32).extractLsb' 0 4).toNat ∧ 8 ≤ ((0x0000000F#32).extractLsb' 0 4).toNat ∧
    (0x00000010#32).extractLsb' 4 4 ≠ 0#4 ∧ (0x01000001#32).extractLsb' 24 8 ≠ 0#8 ∧
    (((0x00000100#32).extractLsb' 0 4).toNat = 0 ∧ (0x00000100#32).extractLsb' 8 8 ≠ 0#8) ∧
    (3 ≤ ((0x00000103#32).extractLsb' 0 4).toNat ∧ (0x00000103#32).extractLsb' 8 8 ≠ 0#8) ∧
    (3 ≤ ((0x00010007#32).extractLsb' 0 4).toNat ∧ (0x00010007#32).extractLsb' 16 8 ≠ 0#8) ∧
    (placed 0x00000008).live ∧ (placed 0x00000008).pending = .code (.command 0x00000008) :: [] ∧
    ¬ (8 ≤ ((0x00FF0000#32).extractLsb' 0 4).toNat ∨ (0x00FF0000#32).extractLsb' 4 4 ≠ 0#4 ∨
      (0x00FF0000#32).extractLsb' 24 8 ≠ 0#8 ∨
      (((0x00FF0000#32).extractLsb' 0 4).toNat = 0 ∧ (0x00FF0000#32).extractLsb' 8 8 ≠ 0#8) ∨
      (3 ≤ ((0x00FF0000#32).extractLsb' 0 4).toNat ∧
        ((0x00FF0000#32).extractLsb' 8 8 ≠ 0#8 ∨ (0x00FF0000#32).extractLsb' 16 8 ≠ 0#8))) ∧
    ¬ (8 ≤ ((0x00000007#32).extractLsb' 0 4).toNat ∨ (0x00000007#32).extractLsb' 4 4 ≠ 0#4 ∨
      (0x00000007#32).extractLsb' 24 8 ≠ 0#8 ∨
      (((0x00000007#32).extractLsb' 0 4).toNat = 0 ∧ (0x00000007#32).extractLsb' 8 8 ≠ 0#8) ∨
      (3 ≤ ((0x00000007#32).extractLsb' 0 4).toNat ∧
        ((0x00000007#32).extractLsb' 8 8 ≠ 0#8 ∨ (0x00000007#32).extractLsb' 16 8 ≠ 0#8))) := by
  refine ⟨?_, ?_, ?_, ?_, ?_, ?_, ?_, ⟨rfl, rfl⟩, rfl, ?_, ?_⟩ <;> decide

theorem witness_AddressBit7IsIgnored : swReady.pinsReady = true ∧ hwReady.pinsReady = true := by decide

theorem witness_StepRunsTheDecodedInstruction : (placed 0x00000006).live ∧
    (placed 0x00000006).pending = .code (.command 0x00000006) :: [] ∧ decode (.command 0x00000006) = .ok .begin :=
  ⟨⟨rfl, rfl⟩, rfl, by decide⟩

theorem witness_StepWaitsForTheHost : State.reset.live ∧ State.reset.pending = [] := ⟨⟨rfl, rfl⟩, rfl⟩

theorem witness_FaultsArePreciseAndFinal :
    (∃ t, step (placed 0x00A50000) = .next t ∧ t.fault ≠ (placed 0x00A50000).fault) ∧
    (∃ t, step { State.reset with pending := [.read (.raw 0)] } = .next t ∧ t.fault ≠ none) ∧
    ({ State.reset with fault := some ⟨.notReady, some 7⟩ } : State).refused = none :=
  ⟨⟨_, rfl, by decide⟩, ⟨_, rfl, by decide⟩, rfl⟩

theorem witness_RefusalsAreFinal : badConfig.wellFormed = false ∧ (placed 0x00000008).live ∧
    (placed 0x00000008).pending = .code (.command 0x00000008) :: [] ∧
    decode (.command 0x00000008) = .error .reservedOp ∧
    (State.construct badConfig).refused = some .malformedConfig ∧
    ({ State.reset with refused := some .reservedEncoding } : State).refused = some .reservedEncoding :=
  ⟨by decide, ⟨rfl, rfl⟩, rfl, by decide, by decide, rfl⟩

theorem witness_FaultRefusedAndEventsOnlyGrow :
    ({ State.reset with fault := some ⟨.notReady, some 7⟩ } : State).fault ≠ none ∧
    ({ State.reset with refused := some .reservedEncoding } : State).refused ≠ none ∧
    ∃ t, step (placed 3) = .next t :=
  ⟨by decide, by decide, _, rfl⟩

theorem witness_ErrorAndFaultCodes : swReady.pinsReady = true ∧ hwPhase.pinsReady = true ∧ hwPhase.phase = .ready ∧
    State.reset.pinsReady = false ∧ State.reset.phase ≠ .ready ∧ Memory.read State.reset.raw 0 = none ∧
    Memory.read State.reset.raw 7 = none := by decide

theorem witness_PinsReadyGuardsTheBus : State.reset.transport = .sw ∧ State.reset.pinsReady = false ∧
    hwBase.transport = .hw ∧ hwBase.pinsReady = false := by decide

theorem witness_Xfer8Software : swReady.transport = .sw ∧ swReady.pinsReady = true ∧ State.reset.transport = .sw ∧
    State.reset.pinsReady = false := by decide

theorem witness_Xfer8HardwareAndChipSelect : hwReady.transport = .hw ∧ hwReady.pinsReady = true ∧
    hwReady.cfg.wellFormed = true ∧ hwBase.transport = .hw ∧ hwBase.pinsReady = false ∧
    swReady.cfg.wellFormed = true ∧ swReady.pinsReady = true := by decide

theorem witness_PincfgSoftware : State.reset.transport = .sw ∧ swReady.transport = .sw := by decide

theorem witness_PincfgHardware : hwBase.transport = .hw ∧ hwReady.transport = .hw := by decide

theorem witness_SckStaysHighAfterAByte : swReady.transport = .sw ∧ swReady.pinsReady = true := by decide

theorem witness_ReadFrame : swReady.pinsReady = true ∧ swReady.transport = .sw ∧ hwReady.pinsReady = true ∧
    hwReady.transport = .hw ∧ State.reset.pinsReady = false ∧ hwBase.pinsReady = false := by decide

theorem witness_WriteFrame : swReady.pinsReady = true ∧ swReady.transport = .sw ∧ hwReady.pinsReady = true ∧
    hwReady.transport = .hw ∧ State.reset.pinsReady = false ∧ hwBase.pinsReady = false := by decide

theorem witness_ReadRoundTrip : swReady.cfg.wellFormed = true ∧ swReady.pinsReady = true ∧
    hwReady.cfg.wellFormed = true ∧ hwReady.pinsReady = true := by decide

theorem witness_WriteRoundTrip : swReady.cfg.wellFormed = true ∧ swReady.pinsReady = true ∧
    hwReady.cfg.wellFormed = true ∧ hwReady.pinsReady = true := by decide

theorem witness_ChipSelectWindow : swReady.cfg.wellFormed = true ∧ swReady.pinsReady = true ∧
    hwReady.cfg.wellFormed = true ∧ hwReady.pinsReady = true ∧ hwReady.transport = .hw := by decide

/-- A step that opens a bracket. -/
theorem witness_BracketSettings : ∃ t, step (hwReady.place (.command 0x0001D001)) = .next t ∧
    Event.hwBegin 500000 .msbFirst .mode0 ∈ t.ev := ⟨_, rfl, by decide⟩

theorem witness_EventCounts : swReady.pinsReady = true ∧ hwReady.pinsReady = true ∧ swPhase.pinsReady = true ∧
    swPhase.phase = .ready ∧ hwPhase.pinsReady = true ∧ hwPhase.phase = .ready ∧
    goodSlave.answerByte 1 = Config.chipIdFull ∧
    ¬ (badSlave.answerByte 1 = Config.chipIdFull ∨ badSlave.answerByte 1 = Config.chipIdReduced) :=
  ⟨by decide, by decide, by decide, rfl, by decide, rfl, rfl, fun h => h.elim strangeId_ne.1 strangeId_ne.2⟩

theorem witness_CalibrationBootstrap : swReady.pinsReady = true ∧ hwReady.pinsReady = true ∧
    State.reset.pinsReady = false := by decide

theorem witness_TrimLayout : swReady.pinsReady = true ∧ hwReady.pinsReady = true := by decide

theorem witness_IdentityCheck : swReady.pinsReady = true ∧ hwReady.pinsReady = true ∧
    State.reset.pinsReady = false := by decide

theorem witness_BeginMismatch : badSlave.answerByte 1 ≠ Config.chipIdFull ∧ badSlave.answerByte 1 ≠ Config.chipIdReduced :=
  strangeId_ne

theorem witness_BeginSequence : goodSlave.answerByte 1 = Config.chipIdFull ∧
    ({ hwBase with slaveBytes := [0xFF, Config.chipIdReduced] } : State).answerByte 1 = Config.chipIdReduced ∧
    badSlave.answerByte 1 ≠ Config.chipIdFull ∧ badSlave.answerByte 1 ≠ Config.chipIdReduced :=
  ⟨rfl, rfl, strangeId_ne⟩

theorem witness_PhaseIsWrittenByBeginOnly : (∃ t, exec .rddata hwPhase = .next t) ∧ Instr.rddata ≠ .begin :=
  ⟨⟨_, rfl⟩, by decide⟩

theorem witness_RawSampleReader : swPhase.phase = .ready ∧ swPhase.pinsReady = true ∧ hwPhase.phase = .ready ∧
    hwPhase.pinsReady = true ∧ State.reset.phase ≠ .ready := by decide

theorem witness_RawSlotsAreZeroExtended : swPhase.phase = .ready ∧ swPhase.pinsReady = true := by decide

theorem witness_RddataOutsideReadyFaults : State.reset.phase ≠ .ready ∧
    ({ swReady with phase := .unusable } : State).phase ≠ .ready := by decide

theorem witness_RddataIgnoresTheVariant : (∃ t, exec .rddata hwPhase = .next t) ∧ (∃ t, exec .rddata State.reset = .next t) ∧
    hwPhase.phase = .ready ∧ hwPhase.pinsReady = true ∧ swPhase.phase = .ready ∧ swPhase.pinsReady = true :=
  ⟨⟨_, rfl⟩, ⟨_, rfl⟩, rfl, by decide, rfl, by decide⟩

theorem witness_RddataIsIdempotent : swPhase.phase = .ready ∧ swPhase.pinsReady = true ∧ hwPhase.phase = .ready ∧
    hwPhase.pinsReady = true := by decide

/-- A buffer whose first and last offsets hold a byte, and one that holds nothing. -/
theorem witness_OutsideReads :
    (∀ k, k < 1 → Memory.read ([(0, 0xAA), (31, 0xBB)] : Memory Byte) (0 + k) = [0xAA#8][k]?) ∧
    (∀ k, k < 1 → Memory.read ([(0, 0xAA), (31, 0xBB)] : Memory Byte) (31 + k) = [0xBB#8][k]?) ∧
    Memory.read State.reset.trim (0 + 31) = none ∧ Memory.read State.reset.raw 7 = none ∧
    Memory.read ({ State.reset with raw := [(7, widen 5)] } : State).raw 7 = some (widen 5) := by
  refine ⟨by decide, by decide, by decide, by decide, rfl⟩

theorem witness_FrameOfPinOperations : (∃ t, exec (.xfer8 0xA5) swReady = .next t) ∧
    (∃ t, exec (.xfer8 0xA5) State.reset = .next t) ∧ (∃ t, exec (.frameRdHdr 0x50) hwReady = .next t) ∧
    (∃ t, exec (.frameWrHdr 0x74) swReady = .next t) ∧ ∃ t, exec .pincfg State.reset = .next t :=
  ⟨⟨_, rfl⟩, ⟨_, rfl⟩, ⟨_, rfl⟩, ⟨_, rfl⟩, _, rfl⟩

theorem witness_FrameOfRegisterFrames : (∃ t, exec (.rread 0xD0 1) swReady = .next t) ∧
    (∃ t, exec (.rread 0xD0 0) hwReady = .next t) ∧ (∃ t, exec (.rwrite 0xF4 0x27) swReady = .next t) ∧
    (∃ t, exec .idchk hwReady = .next t) ∧ ∃ t, exec .idchk State.reset = .next t :=
  ⟨⟨_, rfl⟩, ⟨_, rfl⟩, ⟨_, rfl⟩, ⟨_, rfl⟩, _, rfl⟩

theorem witness_FrameOfRdtrim : (∃ t, exec .rdtrim swReady = .next t) ∧ 32 ≤ 32 := ⟨⟨_, rfl⟩, by decide⟩

theorem witness_FrameOfBegin : (∃ t, exec .begin goodSlave = .next t) ∧
    ∃ t, exec .begin badSlave = .next t ∧ t.idOk = false := by
  refine ⟨⟨_, rfl⟩, _, exec_begin_eq badSlave, ?_⟩
  have h : ¬ idMatches (badSlave.answerByte 1) = true := by
    show ¬ idMatches strangeId = true
    simp [idMatches, strangeId_ne]
  rw [if_neg h]
  show idMatches strangeId = false
  simp [idMatches, strangeId_ne]

theorem witness_FrameOfRddata : (∃ t, exec .rddata hwPhase = .next t) ∧ (∃ t, exec .rddata State.reset = .next t) ∧
    8 ≤ 8 := ⟨⟨_, rfl⟩, ⟨_, rfl⟩, by decide⟩

/-- For each piece of state an instruction that writes it. -/
theorem witness_AccessRights :
    (∃ t, exec .pincfg State.reset = .next t ∧ ¬ ∀ l, t.dirn l = State.reset.dirn l) ∧
    (∃ t, exec .pincfg hwBase = .next t ∧ t.hwStarted ≠ hwBase.hwStarted) ∧
    (∃ t, exec (.rread 0 0) { hwReady with hwInTxn := true } = .next t ∧ t.hwInTxn ≠ true) ∧
    (∃ t, exec .idchk hwReady = .next t ∧ t.chipId ≠ hwReady.chipId) ∧
    (∃ t, exec .rdtrim hwReady = .next t ∧ t.trim ≠ hwReady.trim) ∧
    (∃ t, exec .rddata hwPhase = .next t ∧ (t.stage ≠ hwPhase.stage ∨ t.raw ≠ hwPhase.raw)) ∧
    ∃ t, exec (.xfer8 0) swReady = .next t ∧ (t.lat .sck ≠ swReady.lat .sck ∨ t.lat .mosi ≠ swReady.lat .mosi) := by
  refine ⟨⟨_, rfl, fun h => absurd (h .cs) (by decide)⟩, ⟨_, rfl, by decide⟩, ⟨_, rfl, by decide⟩, ⟨_, rfl, ?_⟩,
    ⟨_, exec_rdtrim_ready (by decide), ?_⟩, ⟨_, exec_rddata_ready rfl (by decide), .inl ?_⟩,
    ⟨_, rfl, .inl (by decide)⟩⟩
  · intro h; injection h
  · rw [State.complete_trim, State.withTrim_trim]
    intro h
    have h0 := congrArg (Memory.read · 0) h
    simp only [Memory.read_writeList, State.trimBytes_length] at h0
    exact absurd h0 (by simp [State.trimBytes, State.answerBytes, Memory.read, hwReady, hwBase, State.construct])
  · rw [State.complete_stage]
    intro h
    have h0 := congrArg (Memory.read · 0) h
    simp only [State.sampled8, Memory.read_writeList, State.sampleBytes_length] at h0
    exact absurd h0 (by simp [State.sampleBytes, State.answerBytes, Memory.read, hwPhase, hwReady, hwBase, State.construct])

theorem witness_WorkingRegistersCarryNothing : (∃ t, exec (.xfer8 0xA5) swReady = .next t) ∧
    ∃ t, exec (.xfer8 0xA5) State.reset = .next t := ⟨⟨_, rfl⟩, _, rfl⟩

theorem witness_DroppedAnswersChangeNothing : hwReady.transport = .hw ∧ hwReady.pinsReady = true ∧
    swReady.transport = .sw ∧ swReady.pinsReady = true ∧
    (List.replicate 8 true).length = 8 ∧ (List.replicate 16 false).length = 16 := by decide

/-- The events of 40_transport R127 are one bracket with one frame; a bracket with two frames, with none, or with an exchange
outside its frame is not. -/
theorem test_bracket_holds_one_frame :
    let c := hwBase.cfg
    let hb : Event := .hwBegin 500000 .msbFirst .mode0
    let cs := Event.drive c.csPin
    busScan c .idle [hb, cs false, .hwXfer 0xD0 0xFF, .hwXfer 0x00 0x60, cs true, .hwEnd] = some .idle ∧
    busScan c .idle [hb, cs false, cs true, cs false, cs true, .hwEnd] = none ∧
    busScan c .idle [hb, .hwEnd] = none ∧
    busScan c .idle [hb, .hwXfer 0xD0 0xFF, cs false, cs true, .hwEnd] = none := by decide

/-- The reset state meets the invariant. -/
theorem reset_inv : Inv State.reset where
  config := .inl (by decide)
  buffers := by constructor <;> simp [State.reset, State.construct, Memory.wf, Memory.below]
  lines := by constructor <;> simp [State.reset, State.construct, Pins.constructed]
  ready := fun h => Phase.noConfusion h
  events := ⟨by decide, fun e h => by simp [State.reset, State.construct] at h⟩
  work := rfl

/-- A step from it, with a command placed, has a next state. -/
theorem witness_StepKeepsInv : Inv (placed 3) ∧ ∃ t, step (placed 3) = .next t :=
  ⟨⟨reset_inv.config, ⟨reset_inv.buffers.trimWf, reset_inv.buffers.stageWf, reset_inv.buffers.rawWf,
      reset_inv.buffers.trimSize, reset_inv.buffers.stageSize, reset_inv.buffers.rawSize, reset_inv.buffers.rawByte⟩,
    ⟨reset_inv.lines.csHigh, reset_inv.lines.sckHigh, reset_inv.lines.noBracket, reset_inv.lines.swNoHw,
      reset_inv.lines.hwOnlyCs⟩,
    fun h => Phase.noConfusion h, ⟨reset_inv.events.order, reset_inv.events.own⟩, rfl⟩, _, rfl⟩

end Sys2Proof.Tests
end

/-! What the statements of 10_state need: what construction leaves, when a configuration is well-formed, what each part of an
operation adds to `EV`, and which operations the readiness check guards. -/

namespace Sys2Proof

/-- The two shapes of 10_state R23. -/
theorem DeviceConfig.wellFormed_iff (c : DeviceConfig) : c.wellFormed = true ↔
    (c.sckPin = .unset ∧ c.mosiPin = .unset ∧ c.misoPin = .unset ∧ c.csPin ≠ .unset) ∨
    (c.csPin ≠ .unset ∧ c.sckPin ≠ .unset ∧ c.mosiPin ≠ .unset ∧ c.misoPin ≠ .unset ∧
      [c.csPin, c.sckPin, c.mosiPin, c.misoPin].Pairwise (· ≠ ·)) := by
  simp [DeviceConfig.wellFormed, DeviceConfig.wellFormedHw, DeviceConfig.wellFormedSw, and_assoc]

end Sys2Proof

namespace Sys2Proof.Machine

/-! ### Construction -/

@[simp] theorem Memory.read_nil {α : Type} (a : Nat) : Memory.read ([] : Memory α) a = none := rfl

theorem Memory.readList_nil {α : Type} {n : Nat} (off : Nat) (h : 1 ≤ n) :
    Memory.readList ([] : Memory α) off n = none := by
  obtain ⟨m, rfl⟩ := Nat.exists_eq_add_of_le' h
  rfl

/-- A read of `TRIM` right after construction finds an UNDEF byte (10_state R39). -/
theorem hostRead_trim_construct (c : DeviceConfig) {off n : Nat} (hn : 1 ≤ n) (hoff : off + n ≤ Config.trimLen) :
    hostRead (.trim off n) (State.construct c) = .next ((State.construct c).raise .undefRead none) := by
  have hread : Memory.readList (State.construct c).trim off n = none := Memory.readList_nil off hn
  rw [hostRead, if_pos ⟨hn, hoff⟩, hread]
  rfl

/-- A read of `RAW` right after construction finds an UNDEF slot (10_state R39). -/
theorem hostRead_raw_construct (c : DeviceConfig) {j : Nat} (hj : j < Config.rawSlots) :
    hostRead (.raw j) (State.construct c) = .next ((State.construct c).raise .undefRead none) := by
  rw [hostRead, if_pos hj]
  rfl

theorem State.construct_refused (c : DeviceConfig) :
    (State.construct c).refused = if c.wellFormed then none else some .malformedConfig := rfl

theorem State.construct_refused_eq_none_iff (c : DeviceConfig) :
    (State.construct c).refused = none ↔ c.wellFormed = true := by
  simp [State.construct_refused]

theorem step_of_refused {s : State} {r : RefusalReason} (h : s.refused = some r) :
    step s = .refused (.noMeaning r) := by
  simp only [step, fetch, h]

/-! ### Events of the block's own transport (10_state R22) -/

@[simp] theorem ownEvents_nil (c : DeviceConfig) : ownEvents c [] := by
  unfold ownEvents
  split <;> simp

@[simp] theorem ownEvents_append {c : DeviceConfig} {as bs : List Event} :
    ownEvents c (as ++ bs) ↔ ownEvents c as ∧ ownEvents c bs := by
  unfold ownEvents
  split <;> exact List.forall_mem_append

theorem ownEvents_flatMap {α : Type} {c : DeviceConfig} {f : α → List Event} (h : ∀ x, ownEvents c (f x))
    (xs : List α) : ownEvents c (xs.flatMap f) := by
  induction xs with
  | nil => exact ownEvents_nil c
  | cons x xs ih => exact ownEvents_append.2 ⟨h x, ih⟩

theorem ownEvents_byteEvents (c : DeviceConfig) (x : Byte × Byte) : ownEvents c (byteEvents c x) := by
  unfold byteEvents
  cases h : c.transport
  · simp [ownEvents, h, Event.isSoftware]
  · refine ownEvents_flatMap (fun i => ?_) _
    simp [ownEvents, h, bitEvents, Event.isHardware]

theorem ownEvents_openEvents (c : DeviceConfig) : ownEvents c (openEvents c) := by
  cases h : c.transport <;> simp [ownEvents, openEvents, h, Event.isSoftware, Event.isHardware]

theorem ownEvents_closeEvents (c : DeviceConfig) : ownEvents c (closeEvents c) := by
  cases h : c.transport <;> simp [ownEvents, closeEvents, h, Event.isSoftware, Event.isHardware]

theorem ownEvents_setupEvents (c : DeviceConfig) : ownEvents c (setupEvents c) := by
  cases h : c.transport <;> simp [ownEvents, setupEvents, h, Event.isSoftware, Event.isHardware]

theorem ownEvents_frameEvents (c : DeviceConfig) (xs : List (Byte × Byte)) : ownEvents c (frameEvents c xs) := by
  simp only [frameEvents, ownEvents_append]
  exact ⟨⟨ownEvents_openEvents c, ownEvents_flatMap (ownEvents_byteEvents c) xs⟩, ownEvents_closeEvents c⟩

/-! ### What a step does to `CFG` and `EV` -/

/-- `CFG` is as before, and `EV` grew by events of the block's own transport (10_state R22, R35). -/
structure AppendsOwnEvents (s t : State) : Prop where
  cfg : t.cfg = s.cfg
  ev  : ∃ es, t.ev = s.ev ++ es ∧ ownEvents s.cfg es

namespace AppendsOwnEvents

variable {s t u : State}

/-- Nothing appended: every other element of the state may change. -/
theorem of_eq (hcfg : t.cfg = s.cfg) (hev : t.ev = s.ev) : AppendsOwnEvents s t :=
  ⟨hcfg, [], by simp [hev], ownEvents_nil _⟩

theorem trans (h : AppendsOwnEvents s t) (h' : AppendsOwnEvents t u) : AppendsOwnEvents s u := by
  obtain ⟨hc, es, he, ho⟩ := h
  obtain ⟨hc', es', he', ho'⟩ := h'
  rw [hc] at ho'
  exact ⟨hc'.trans hc, es ++ es', by rw [he', he, List.append_assoc], ownEvents_append.2 ⟨ho, ho'⟩⟩

theorem sent (ts : List Byte) (s : State) : AppendsOwnEvents s (s.sent ts) :=
  ⟨rfl, _, rfl, ownEvents_flatMap (ownEvents_byteEvents s.cfg) _⟩

theorem framed (ts : List Byte) (s : State) : AppendsOwnEvents s (s.framed ts) :=
  ⟨rfl, _, rfl, ownEvents_frameEvents s.cfg _⟩

theorem configured (s : State) : AppendsOwnEvents s s.configured :=
  ⟨rfl, _, rfl, ownEvents_setupEvents s.cfg⟩

theorem identified (s : State) : AppendsOwnEvents s s.identified :=
  (framed (readBytes Config.idAddr 1) s).trans (of_eq rfl rfl)

theorem trimFrames (s : State) : AppendsOwnEvents s s.trimFrames :=
  (((framed _ s).trans (framed _ _)).trans (framed _ _)).trans (framed _ _)

theorem initFrames (s : State) : AppendsOwnEvents s s.initFrames :=
  ((framed _ s).trans (framed _ _)).trans (framed _ _)

theorem dataFrames (s : State) : AppendsOwnEvents s s.dataFrames :=
  ((framed _ s).trans (framed _ _)).trans (framed _ _)

theorem checked (s : State) : AppendsOwnEvents s s.checked :=
  (configured s).trans (identified _)

theorem withTrim (h : AppendsOwnEvents s t) (m : Memory Byte) : AppendsOwnEvents s (t.withTrim m) :=
  h.trans (of_eq rfl rfl)

theorem loaded (s : State) : AppendsOwnEvents s s.loaded :=
  (((checked s).trans (initFrames _)).trans (trimFrames _)).withTrim _

theorem sampled8 (s : State) : AppendsOwnEvents s s.sampled8 :=
  (dataFrames s).trans (of_eq rfl rfl)

theorem complete (h : AppendsOwnEvents s t) (r : Result) : AppendsOwnEvents s (t.complete r) :=
  h.trans (of_eq rfl rfl)

theorem settle (h : AppendsOwnEvents s t) : AppendsOwnEvents s t.settle :=
  h.trans (of_eq rfl rfl)

theorem finishBegin (h : AppendsOwnEvents s t) (ok : Bool) : AppendsOwnEvents s (t.finishBegin ok) :=
  h.trans (of_eq rfl rfl)

/-- Taking an input off the queue before the rest of a step. -/
theorem of_pending {rest : List HostInput} (h : AppendsOwnEvents { s with pending := rest } t) :
    AppendsOwnEvents s t :=
  ⟨h.cfg, h.ev⟩

end AppendsOwnEvents

open AppendsOwnEvents in
theorem exec_appendsOwnEvents {i : Instr} {s t : State} (h : exec i s = .next t) : AppendsOwnEvents s t := by
  cases exec_next h with
  | raised hr =>
    obtain ⟨r, w, rfl⟩ := hr.state
    exact of_eq rfl rfl
  | xfer8 _ _ _ ht => subst ht; exact (sent _ s).complete _
  | rread _ _ _ _ ht => subst ht; exact (framed _ s).complete _
  | rwrite _ _ _ _ ht => subst ht; exact (framed _ s).complete _
  | pincfg _ ht => subst ht; exact (configured s).complete _
  | idchk _ _ ht => subst ht; exact (identified s).complete _
  | rdtrim _ _ ht => subst ht; exact ((trimFrames s).withTrim _).complete _
  | beginOk _ _ ht => subst ht; exact (loaded s).finishBegin _
  | beginNo _ _ ht => subst ht; exact (checked s).finishBegin _
  | rddata _ _ _ ht => subst ht; exact (sampled8 s).complete _
  | header _ _ _ ht => subst ht; exact (sent _ s).settle

theorem hostRead_appendsOwnEvents {r : ReadReq} {s t : State} (h : hostRead r s = .next t) :
    AppendsOwnEvents s t := by
  obtain ⟨o, rfl⟩ := hostRead_next h
  cases o <;> exact .of_eq rfl rfl

theorem step_appendsOwnEvents {s t : State} (h : step s = .next t) : AppendsOwnEvents s t := by
  obtain ⟨-, -, ⟨-, rfl⟩ | ⟨_, _, _, -, -, he⟩ | ⟨_, _, _, -, -, rfl⟩ | ⟨_, _, -, hr⟩⟩ := step_next h
  · exact .of_eq rfl rfl
  · exact .of_pending (exec_appendsOwnEvents he)
  · exact .of_eq rfl rfl
  · exact .of_pending (hostRead_appendsOwnEvents hr)

/-! ### Pin readiness (10_state R27) -/

theorem State.pinsReady_sw {s : State} (h : s.transport = .sw) : s.pinsReady = true ↔
    s.dirn .cs = .output ∧ s.dirn .sck = .output ∧ s.dirn .mosi = .output ∧ s.dirn .miso = .input := by
  simp [State.pinsReady, h]

theorem State.pinsReady_hw {s : State} (h : s.transport = .hw) :
    s.pinsReady = true ↔ s.dirn .cs = .output ∧ s.hwStarted = true := by
  simp [State.pinsReady, h]

/-- The five operations the readiness check alone guards; RDDATA checks the phase first (60_exceptions R245). -/
theorem exec_unready {s : State} {i : Instr} (h : s.pinsReady = false)
    (hi : (∃ tx, i = .xfer8 tx) ∨ (∃ a n, i = .rread a n) ∨ (∃ a d, i = .rwrite a d) ∨ i = .idchk ∨ i = .rdtrim) :
    exec i s = .next (s.raise .pinsUnconfigured (commandWord i)) := by
  obtain ⟨tx, rfl⟩ | ⟨a, n, rfl⟩ | ⟨a, d, rfl⟩ | rfl | rfl := hi
  · simp only [exec, execXfer8, State.withPins_unready h]
  · simp only [exec, execRread, State.withPins_unready h]
  · simp only [exec, execRwrite, State.withPins_unready h]
  · simp only [exec, execIdchk, State.withPins_unready h]
  · simp only [exec, execRdtrim, State.withPins_unready h]

/-! ### The statements of 10_state -/

/-- Settles O4: every step keeps `CFG`, of which the transport is a function, and appends own events only. -/
theorem oneTransportPerInstance : Obligations.OneTransportPerInstance := by
  refine ⟨fun _ => rfl, fun s t h => ?_⟩
  obtain ⟨hcfg, hev⟩ := step_appendsOwnEvents h
  exact ⟨hcfg, congrArg DeviceConfig.transport hcfg, hev⟩

/-- Settles O18: a step that has a next state starts live, and appends to `EV`. -/
theorem faultRefusedAndEventsOnlyGrow : Obligations.FaultRefusedAndEventsOnlyGrow := by
  refine ⟨fun s t hstop h => ?_, fun s t h => ?_⟩
  · obtain ⟨hrefused, hfault, -⟩ := step_next h
    exact hstop.elim (· hfault) (· hrefused)
  · obtain ⟨es, hev, -⟩ := (step_appendsOwnEvents h).ev
    exact ⟨es, hev⟩

/-- Settles O1: the table of R39 field by field, and the two reads of an UNDEF element. -/
theorem constructionValues : Obligations.ConstructionValues := by
  intro c
  refine ⟨rfl, rfl, fun l => ?lat, fun l => ?dirn, rfl, rfl, rfl, rfl, fun _ => rfl, fun _ => rfl, fun _ => rfl, rfl, rfl,
    rfl, rfl, fun off n hn hoff => ?trim, fun j hj => ?raw⟩
  case lat => cases l <;> rfl
  case dirn => cases l <;> rfl
  case trim => exact ⟨⟨.undefRead, none⟩, rfl, hostRead_trim_construct c hn hoff⟩
  case raw => exact ⟨⟨.undefRead, none⟩, rfl, hostRead_raw_construct c hj⟩

/-- Settles O3: the constructors and construction are records, read back field by field. -/
theorem constructorsStoreTheirArguments : Obligations.ConstructorsStoreTheirArguments :=
  fun _ _ _ _ _ => ⟨⟨rfl, rfl, rfl, rfl, rfl⟩, ⟨rfl, rfl, rfl, rfl, rfl⟩, fun _ => ⟨rfl, rfl⟩⟩

/-- Settles O5: construction refuses what is not well-formed, and `fetch` stops at a refusal first. -/
theorem malformedConfigIsRefused : Obligations.MalformedConfigIsRefused := by
  refine ⟨fun c => ⟨(State.construct_refused_eq_none_iff c).trans (DeviceConfig.wellFormed_iff c), ?_⟩,
    fun s => step_of_refused⟩
  rw [State.construct_refused]
  exact ite_eq_or_eq _ _ _

/-- Settles O20: readiness by transport, and the fault that each guarded operation raises without it. -/
theorem pinsReadyGuardsTheBus : Obligations.PinsReadyGuardsTheBus :=
  fun _ => ⟨State.pinsReady_sw, State.pinsReady_hw, fun h _ hi => exec_unready h hi⟩

end Sys2Proof.Machine

/-! What the statements of 30_encoding need: which words decode, what a step does with a word that does not, the header bytes as
bits, and the assembler's row of each mnemonic. -/

namespace Sys2Proof

/-! ### The words that spell an operation (30_encoding R95, R97) -/

/-- The words that spell no operation: a reserved `OP`, a reserved field that is not zero, or an unused field that is not zero
(30_encoding R97). -/
def ReservedCommand (w : Cmd) : Prop :=
  8 ≤ (fieldOp w).toNat ∨ fieldRsv0 w ≠ 0 ∨ fieldRsv1 w ≠ 0 ∨ ((fieldOp w).toNat = 0 ∧ fieldA w ≠ 0) ∨
    (3 ≤ (fieldOp w).toNat ∧ (fieldA w ≠ 0 ∨ fieldB w ≠ 0))

theorem exists_ok_ite_error {ε α : Type} {p : Prop} [Decidable p] {a : α} {e : ε} :
    (∃ i, (if p then .ok a else .error e : Except ε α) = .ok i) ↔ p := by
  by_cases hp : p <;> simp [hp]

theorem decodeNoOperand_ok_iff (w : Cmd) (i : Instr) :
    (∃ j, decodeNoOperand w i = .ok j) ↔ fieldA w = 0 ∧ fieldB w = 0 :=
  exists_ok_ite_error

/-- The rows of the table of R95 by `OP`: `XFER8`, the two register operations, and the five operations without operands. -/
theorem decodeOp_ok_iff (w : Cmd) : (∃ i, decodeOp w = .ok i) ↔
    ((fieldOp w).toNat = 0 ∧ fieldA w = 0) ∨ (fieldOp w).toNat = 1 ∨ (fieldOp w).toNat = 2 ∨
      (3 ≤ (fieldOp w).toNat ∧ (fieldOp w).toNat ≤ 7 ∧ fieldA w = 0 ∧ fieldB w = 0) := by
  unfold decodeOp
  split
  case h_1 hop => rw [exists_ok_ite_error]; simp [hop]
  case h_2 hop | h_3 hop => simp [hop]
  case h_4 hop | h_5 hop | h_6 hop | h_7 hop | h_8 hop => simp [decodeNoOperand_ok_iff, hop]
  case h_9 => grind

/-- With the reserved fields zero, the words left over by the rows of `decodeOp` are the clauses about `OP`, `A` and `B`. -/
theorem decodeCommand_ok_iff (w : Cmd) : (∃ i, decodeCommand w = .ok i) ↔ ¬ ReservedCommand w := by
  unfold decodeCommand ReservedCommand
  split
  case isTrue hrsv =>
    rw [decodeOp_ok_iff]
    grind
  case isFalse hrsv =>
    have hreserved : fieldRsv0 w ≠ 0 ∨ fieldRsv1 w ≠ 0 := not_and_or.1 hrsv
    simp only [reduceCtorEq, exists_false, false_iff, not_not]
    tauto

theorem decodeCommand_error_of_reserved {w : Cmd} (h : ReservedCommand w) : ∃ e, decodeCommand w = .error e := by
  cases hd : decodeCommand w with
  | error e => exact ⟨e, rfl⟩
  | ok i => exact absurd h ((decodeCommand_ok_iff w).1 ⟨i, hd⟩)

end Sys2Proof

namespace Sys2Proof.Machine

/-- A live instance takes a code that spells no operation off the queue and refuses; nothing else changes. -/
theorem step_of_decode_error {s : State} {c : Code} {e : DecodeError} {rest : List HostInput} (hlive : s.live)
    (hpending : s.pending = .code c :: rest) (hdecode : decode c = .error e) :
    step s = .next { s with pending := rest, refused := some .reservedEncoding } := by
  obtain ⟨hrefused, hfault⟩ := hlive
  simp only [step, fetch, hrefused, hfault, hpending, hdecode, State.refuse]

/-! ### Header bytes as bits (30_encoding R91) -/

theorem readHeader_eq_append (addr : Byte) : readHeader addr = 1#1 ++ addr.setWidth 7 := by
  have hmask : 0x80#8 = 1#1 ++ 0#7 := by decide
  rw [readHeader, hmask]
  apply BitVec.eq_of_getLsbD_eq
  intro i hi
  rw [BitVec.getLsbD_or, BitVec.getLsbD_append, BitVec.getLsbD_append]
  obtain hlow | rfl : i < 7 ∨ i = 7 := by omega
  · simp [hlow]
  · simp

theorem writeHeader_eq_append (addr : Byte) : writeHeader addr = 0#1 ++ addr.setWidth 7 := by
  have hmask : 0x7F#8 = 0#1 ++ BitVec.allOnes 7 := by decide
  rw [writeHeader, hmask]
  apply BitVec.eq_of_getLsbD_eq
  intro i hi
  rw [BitVec.getLsbD_and, BitVec.getLsbD_append, BitVec.getLsbD_append, BitVec.getLsbD_allOnes]
  obtain hlow | rfl : i < 7 ∨ i = 7 := by omega
  · simp [hlow]
  · simp

/-! ### The assembler by mnemonic (30_encoding R100, R101) -/

/-- A write whose address operand is a register symbol or a number is the write to that address. -/
theorem asmRwrite_eq_asmWrite {l : List Char} {a : Byte} (hl : parseAddr l = .ok a) (d : List Char) :
    asmRwrite [l, d] = asmWrite a [d] := by
  simp only [asmRwrite, asmWrite, hl]
  cases parseByte d <;> rfl

theorem asmOp_rwrite (ops : List (List Char)) : asmOp "rwrite".toList ops = asmRwrite ops := rfl
theorem asmOp_wrhum (ops : List (List Char)) : asmOp "wrhum".toList ops = asmWrite Config.ctrlHumAddr ops := rfl
theorem asmOp_wrmeas (ops : List (List Char)) : asmOp "wrmeas".toList ops = asmWrite Config.ctrlMeasAddr ops := rfl
theorem asmOp_wrcfg (ops : List (List Char)) : asmOp "wrcfg".toList ops = asmWrite Config.configAddr ops := rfl

/-! ### The statements of 30_encoding -/

/-- Settles O9: the clauses of R97 are those of `ReservedCommand`; such a word has a decoding error, every other word an
operation. -/
theorem reservedWordsAreRefused : Obligations.ReservedWordsAreRefused := by
  refine fun w => ⟨fun (hw : ReservedCommand w) s rest hlive hpending => ?_,
    fun (hw : ¬ ReservedCommand w) => (decodeCommand_ok_iff w).2 hw⟩
  obtain ⟨e, he⟩ := decodeCommand_error_of_reserved hw
  exact step_of_decode_error hlive hpending he

/-- Settles O11: the two masks are the model's definitions; each header is the indicator bit over the address's low seven. -/
theorem headerBytes : Obligations.HeaderBytes :=
  fun addr => ⟨readHeader_eq_append addr, writeHeader_eq_append addr, rfl, rfl⟩

/-- Settles O13: the three writes go through the symbol their expansion names; the read and the dummy byte have no operand. -/
theorem pseudoInstructions : Obligations.PseudoInstructions := by
  refine ⟨rfl, fun d => ?wrhum, fun d => ?wrmeas, fun d => ?wrcfg, rfl⟩
  case wrhum => rw [asmOp_wrhum, asmOp_rwrite, asmRwrite_eq_asmWrite rfl]
  case wrmeas => rw [asmOp_wrmeas, asmOp_rwrite, asmRwrite_eq_asmWrite rfl]
  case wrcfg => rw [asmOp_wrcfg, asmOp_rwrite, asmRwrite_eq_asmWrite rfl]

end Sys2Proof.Machine

/-! What the statements of 40_transport need: the closed forms of a lone byte and of PINCFG written out for each transport, and
that a byte never drives chip-select. -/

namespace Sys2Proof

/-- The pins a byte moves are not chip-select: in software the four are distinct, in hardware the two are unset (10_state R23). -/
theorem DeviceConfig.wellFormed_csPin_ne {c : DeviceConfig} (h : c.wellFormed = true) :
    c.sckPin ≠ c.csPin ∧ c.mosiPin ≠ c.csPin := by
  obtain ⟨hsck, hmosi, -, hcs⟩ | ⟨-, -, -, -, hdistinct⟩ := c.wellFormed_iff.1 h
  · rw [hsck, hmosi]
    exact ⟨hcs.symm, hcs.symm⟩
  · obtain ⟨hcs, -⟩ := List.pairwise_cons.1 hdistinct
    exact ⟨(hcs _ (by simp)).symm, (hcs _ (by simp)).symm⟩

end Sys2Proof

namespace Sys2Proof.Machine

/-! ### The slave's answers by transport -/

theorem State.answerByte_sw {s : State} (h : s.transport = .sw) (j : Nat) :
    s.answerByte j = packMsb fun i => s.answerBit (8 * j + i) := by
  rw [State.answerByte, h]

theorem State.answerByte_hw {s : State} (h : s.transport = .hw) (j : Nat) : s.answerByte j = s.answerHwByte j := by
  rw [State.answerByte, h]

/-- Bit `i` of the eight lies `i` places below the top (20_memory R67). -/
theorem packMsb_getLsbD_sub (f : Nat → Bool) {i : Nat} (hi : i < 8) : (packMsb f).getLsbD (7 - i) = f i := by
  obtain ⟨h7, h6, h5, h4, h3, h2, h1, h0⟩ := packMsb_getLsbD f
  interval_cases i <;> assumption

/-- In software sample `i` of byte `j` is bit `7 - i` of the byte (40_transport R121). -/
theorem State.answerByte_getLsbD_sw {s : State} (h : s.transport = .sw) (j : Nat) {i : Nat} (hi : i < 8) :
    (s.answerByte j).getLsbD (7 - i) = s.answerBit (8 * j + i) := by
  rw [State.answerByte_sw h, packMsb_getLsbD_sub _ hi]

/-! ### A lone byte by transport (40_transport R121, R125) -/

theorem State.sent_singleton_sw {s : State} (h : s.transport = .sw) (tx : Byte) : s.sent [tx] = { s with
    pins := { s.pins with latSck := some true, latMosi := some (tx.getLsbD 0) }
    ev := s.ev ++ [7, 6, 5, 4, 3, 2, 1, 0].flatMap (bitEvents s.cfg tx (s.answerByte 0))
    slaveBits := s.slaveBits.drop 8
    answers := s.answers + 8 } := by
  have hcfg : s.cfg.transport = .sw := h
  simp [State.sent, State.pinsAfter, State.exchanges, byteEvents, State.bitsFor, State.bytesFor, h, hcfg]

theorem State.sent_singleton_hw {s : State} (h : s.transport = .hw) (tx : Byte) : s.sent [tx] = { s with
    ev := s.ev ++ [.hwXfer tx (s.answerHwByte 0)]
    slaveBytes := s.slaveBytes.drop 1
    answers := s.answers + 1 } := by
  have hcfg : s.cfg.transport = .hw := h
  simp [State.sent, State.pinsAfter, State.exchanges, byteEvents, State.bitsFor, State.bytesFor, State.answerByte_hw h, h,
    hcfg]

theorem exec_xfer8_unready {s : State} (tx : Byte) (h : s.pinsReady = false) :
    exec (.xfer8 tx) s = .next (s.raise .pinsUnconfigured (commandWord (.xfer8 tx))) :=
  exec_unready h (.inl ⟨tx, rfl⟩)

/-! ### Bytes and chip-select (40_transport R125) -/

@[simp] theorem csLevels_append (c : DeviceConfig) (es fs : List Event) :
    csLevels c (es ++ fs) = csLevels c es ++ csLevels c fs := by
  induction es with
  | nil => rfl
  | cons e es ih =>
    cases e
    case drive p v =>
      by_cases hp : p = c.csPin <;> simp [csLevels, hp, ih]
    all_goals exact ih

theorem csLevels_flatMap_eq_nil {α : Type} {c : DeviceConfig} {f : α → List Event} (h : ∀ x, csLevels c (f x) = [])
    (xs : List α) : csLevels c (xs.flatMap f) = [] := by
  induction xs with
  | nil => rfl
  | cons x xs ih => rw [List.flatMap_cons, csLevels_append, h, ih, List.append_nil]

theorem csLevels_bitEvents {c : DeviceConfig} (h : c.wellFormed = true) (t r : Byte) (i : Nat) :
    csLevels c (bitEvents c t r i) = [] := by
  obtain ⟨hsck, hmosi⟩ := DeviceConfig.wellFormed_csPin_ne h
  simp [bitEvents, csLevels, hsck, hmosi]

theorem csLevels_byteEvents {c : DeviceConfig} (h : c.wellFormed = true) (x : Byte × Byte) :
    csLevels c (byteEvents c x) = [] := by
  unfold byteEvents
  cases c.transport
  case sw => exact csLevels_flatMap_eq_nil (csLevels_bitEvents h x.1 x.2) _
  case hw => rfl

theorem State.pinsAfter_latCs (ts : List Byte) (s : State) : (s.pinsAfter ts).latCs = s.pins.latCs := by
  unfold State.pinsAfter
  split <;> rfl

theorem State.sent_lat_cs (ts : List Byte) (s : State) : (s.sent ts).lat .cs = s.lat .cs :=
  s.pinsAfter_latCs ts

/-! ### PINCFG by transport (40_transport R130, R131) -/

theorem State.configured_sw {s : State} (h : s.transport = .sw) : s.configured = { s with
    pins := { s.pins with
      latCs := some true, dirCs := .output, dirSck := .output, dirMosi := .output, dirMiso := .input }
    ev := s.ev ++ [.drive s.cfg.csPin true, .dir s.cfg.csPin .output, .dir s.cfg.sckPin .output,
      .dir s.cfg.mosiPin .output, .dir s.cfg.misoPin .input] } := by
  have hcfg : s.cfg.transport = .sw := h
  simp only [State.configured, setupEvents, h, hcfg]

theorem State.configured_hw {s : State} (h : s.transport = .hw) : s.configured = { s with
    pins := { s.pins with latCs := some true, dirCs := .output }
    hwStarted := true
    ev := s.ev ++ [.drive s.cfg.csPin true, .dir s.cfg.csPin .output, .hwStart] } := by
  have hcfg : s.cfg.transport = .hw := h
  simp only [State.configured, setupEvents, h, hcfg]

/-- Handing out a result leaves readiness as it is. -/
@[simp] theorem State.complete_pinsReady (r : Result) (s : State) : (s.complete r).pinsReady = s.pinsReady := rfl

/-! ### The statements of 40_transport -/

/-- Settles O21: the closed form of one byte, written out for the bit-banger. -/
theorem xfer8Software : Obligations.Xfer8Software := by
  refine fun s tx hsw => ⟨fun hready => ⟨?next, fun i hi => ?sample⟩, exec_xfer8_unready tx⟩
  case next =>
    rw [exec_xfer8_ready tx hready, State.sent_singleton_sw hsw]
    rfl
  case sample => rw [State.answerByte_getLsbD_sw hsw 0 hi, Nat.mul_zero, Nat.zero_add]

/-- Settles O22: the closed form of one byte in hardware; in both transports it moves pins other than chip-select only. -/
theorem xfer8HardwareAndChipSelect : Obligations.Xfer8HardwareAndChipSelect := by
  refine ⟨fun s tx hwf hready => ?chipSelect, fun s tx hhw => ⟨fun hready => ?next, exec_xfer8_unready tx⟩⟩
  case chipSelect =>
    exact ⟨_, _, exec_xfer8_ready tx hready, rfl, csLevels_flatMap_eq_nil (csLevels_byteEvents hwf) _, s.sent_lat_cs [tx]⟩
  case next =>
    rw [exec_xfer8_ready tx hready, State.sent_singleton_hw hhw, State.answerByte_hw hhw]
    rfl

/-- Settles O23: the closed form of PINCFG, written out for the bit-banger. -/
theorem pincfgSoftware : Obligations.PincfgSoftware := by
  intro s hsw
  refine ⟨_, exec_pincfg_eq s, (State.complete_pinsReady _ _).trans s.configured_pinsReady, ?_⟩
  rw [State.configured_sw hsw]
  rfl

/-- Settles O24: the closed form of PINCFG, written out for the peripheral. -/
theorem pincfgHardware : Obligations.PincfgHardware := by
  intro s hhw
  refine ⟨_, exec_pincfg_eq s, (State.complete_pinsReady _ _).trans s.configured_pinsReady, ?_⟩
  rw [State.configured_hw hhw]
  rfl

end Sys2Proof.Machine

/-! What the statements of 41_frames need: how many events a frame has, and the latches and the bracket after it. -/

namespace Sys2Proof.Machine

/-! ### How many events a frame has (41_frames R150, R160) -/

@[simp] theorem State.exchanges_length (s : State) (j : Nat) (ts : List Byte) : (s.exchanges j ts).length = ts.length := by
  induction ts generalizing j with
  | nil => rfl
  | cons t ts ih => simp [State.exchanges, ih]

theorem byteEvents_length_sw {c : DeviceConfig} (h : c.transport = .sw) (x : Byte × Byte) :
    (byteEvents c x).length = 32 := by
  rw [byteEvents, h]
  rfl

theorem byteEvents_length_hw {c : DeviceConfig} (h : c.transport = .hw) (x : Byte × Byte) :
    (byteEvents c x).length = 1 := by
  rw [byteEvents, h]
  rfl

theorem openEvents_closeEvents_length_sw {c : DeviceConfig} (h : c.transport = .sw) :
    (openEvents c).length = 1 ∧ (closeEvents c).length = 1 := by
  rw [openEvents, closeEvents, h]
  exact ⟨rfl, rfl⟩

theorem openEvents_closeEvents_length_hw {c : DeviceConfig} (h : c.transport = .hw) :
    (openEvents c).length = 2 ∧ (closeEvents c).length = 2 := by
  rw [openEvents, closeEvents, h]
  exact ⟨rfl, rfl⟩

theorem frameEvents_length {c : DeviceConfig} {k : Nat} (hbyte : ∀ x, (byteEvents c x).length = k)
    (xs : List (Byte × Byte)) :
    (frameEvents c xs).length = (openEvents c).length + k * xs.length + (closeEvents c).length := by
  simp [frameEvents, List.length_flatMap, hbyte, Nat.mul_comm k, Nat.add_assoc]

theorem State.framed_ev_length_sw {s : State} (h : s.transport = .sw) (ts : List Byte) :
    (s.framed ts).ev.length = s.ev.length + (2 + 32 * ts.length) := by
  obtain ⟨hopen, hclose⟩ := openEvents_closeEvents_length_sw h
  rw [State.framed_ev, List.length_append, frameEvents_length (byteEvents_length_sw h), hopen, hclose,
    State.exchanges_length]
  omega

theorem State.framed_ev_length_hw {s : State} (h : s.transport = .hw) (ts : List Byte) :
    (s.framed ts).ev.length = s.ev.length + (4 + ts.length) := by
  obtain ⟨hopen, hclose⟩ := openEvents_closeEvents_length_hw h
  rw [State.framed_ev, List.length_append, frameEvents_length (byteEvents_length_hw h), hopen, hclose,
    State.exchanges_length]
  omega

/-! ### The latches and the bracket after a frame (10_state R28, 40_transport R127) -/

theorem State.framed_lat_sck_mosi_sw {s : State} (h : s.transport = .sw) {ts : List Byte} {b : Byte}
    (hlast : ts.getLast? = some b) :
    (s.framed ts).lat .sck = some true ∧ (s.framed ts).lat .mosi = some (b.getLsbD 0) := by
  have hts : ts ≠ [] := List.ne_nil_of_mem (List.mem_of_getLast? hlast)
  simp [State.lat, State.framed, State.pinsAfter, h, hts, hlast]

theorem State.framed_hwInTxn_hw {s : State} (h : s.transport = .hw) (ts : List Byte) :
    (s.framed ts).hwInTxn = false := by
  simp [State.framed, h]

/-- A read frame ends with a dummy byte, or with its header when it reads nothing. -/
theorem readBytes_getLast? (addr : Byte) (n : Nat) :
    (readBytes addr n).getLast? = some (if n = 0 then addr ||| 0x80#8 else 0x00#8) := by
  cases n with
  | zero => rfl
  | succ n => simp [readBytes, List.getLast?_cons, List.getLast?_replicate]

/-- The header's read flag is bit 7, so its bit 0 is the address's. -/
theorem readBytes_last_getLsbD_zero (addr : Byte) (n : Nat) :
    (if n = 0 then addr ||| 0x80#8 else 0x00#8).getLsbD 0 = if n = 0 then addr.getLsbD 0 else false := by
  split <;> simp

/-! ### The statements of 41_frames -/

/-- Settles O27: the closed form of RREAD, its events counted by transport, and its last byte on the data latch. -/
theorem readFrame : Obligations.ReadFrame := by
  intro s addr n
  refine ⟨fun hready => ⟨_, exec_rread_ready addr n hready, rfl, rfl, ?count, rfl, fun hsw => ?latches,
    fun hhw => State.framed_hwInTxn_hw hhw (readBytes addr n)⟩,
    fun hunready => exec_unready hunready (.inr (.inl ⟨addr, n, rfl⟩))⟩
  case count =>
    rw [← readBytes_length addr n]
    cases h : s.transport
    case sw => exact State.framed_ev_length_sw h _
    case hw => exact State.framed_ev_length_hw h _
  case latches =>
    rw [← readBytes_last_getLsbD_zero]
    exact State.framed_lat_sck_mosi_sw hsw (readBytes_getLast? addr n)

/-- Settles O28: the closed form of RWRITE, its events counted by transport, and its data byte on the data latch. -/
theorem writeFrame : Obligations.WriteFrame := by
  intro s addr d
  refine ⟨fun hready => ⟨_, exec_rwrite_ready addr d hready, rfl, rfl, ?count, rfl,
    fun hsw => State.framed_lat_sck_mosi_sw (ts := writeBytes addr d) hsw rfl,
    fun hhw => State.framed_hwInTxn_hw hhw (writeBytes addr d)⟩,
    fun hunready => exec_unready hunready (.inr (.inr (.inl ⟨addr, d, rfl⟩)))⟩
  case count =>
    cases h : s.transport
    case sw => exact State.framed_ev_length_sw h _
    case hw => exact State.framed_ev_length_hw h _

end Sys2Proof.Machine

/-! What the statement of 42_calibration needs: a read after a row of writes from offset 0, and a state whose `TRIM` is replaced
before its result is handed out, field by field. -/

namespace Sys2Proof.Machine

/-- A row of writes from offset 0 stands before what the buffer held (20_memory R70). -/
theorem Memory.read_writeList_zero {α : Type} (m : Memory α) (l : List α) (a : Nat) :
    Memory.read (Memory.writeList m 0 l) a = l[a]?.or (Memory.read m a) := by
  rw [Memory.read_writeList, Nat.zero_add, Nat.sub_zero]
  by_cases ha : a < l.length <;> simp [ha]

theorem State.complete_withTrim (m : Memory Byte) (r : Result) (s : State) : (s.withTrim m).complete r =
    { s with trim := m, results := s.results ++ [r], work := WorkRegs.noValue } := rfl

/-! ### The statement of 42_calibration -/

/-- Settles O34: the closed form of RDTRIM, its four frames counted from the first answer, and its bytes read back. -/
theorem calibrationBootstrap : Obligations.CalibrationBootstrap := by
  refine fun s => ⟨fun hready => ⟨_, exec_rdtrim_ready hready, ?next, ?events, fun off => ?trim⟩,
    fun hunready => exec_unready hunready (.inr (.inr (.inr (.inr rfl))))⟩
  case next => simp only [State.complete_withTrim, State.trimFrames_results]
  case events => exact State.trimFrames_ev (s := s) (t := s) 0 rfl fun i => by rw [Nat.zero_add]
  case trim => rw [State.complete_trim, State.withTrim_trim, Memory.read_writeList_zero, State.trimBytes]

end Sys2Proof.Machine

/-! What the statements of 43_identity need: the allow-list as a proposition; that `CHIP_ID`, `ID_OK` and `PHASE` play no part in
a frame; and, from that, BEGIN's two ends written out over the frames it sends. -/

namespace Sys2Proof.Machine

/-! ### The allow-list (43_identity R200, R201) -/

/-- The gap is one of 1 to 255, so adding it never leads back to `CHIP_ID_FULL`. -/
theorem chipIdFull_ne_chipIdReduced : Config.chipIdFull ≠ Config.chipIdReduced := by
  intro h
  have hgap : BitVec.ofNat 8 (Config.chipIdGap.val + 1) = 0#8 := BitVec.self_eq_add_right.1 h
  have hmod := congrArg BitVec.toNat hgap
  rw [BitVec.toNat_ofNat, BitVec.toNat_ofNat] at hmod
  omega

theorem idMatches_iff (id : Byte) : idMatches id = true ↔ id = Config.chipIdFull ∨ id = Config.chipIdReduced := by
  simp [idMatches]

theorem idMatches_eq_decide (id : Byte) :
    idMatches id = decide (id = Config.chipIdFull ∨ id = Config.chipIdReduced) := by
  rw [Bool.eq_iff_iff, idMatches_iff, decide_eq_true_iff]

theorem idMatches_eq_false_iff (id : Byte) :
    idMatches id = false ↔ id ≠ Config.chipIdFull ∧ id ≠ Config.chipIdReduced := by
  rw [Bool.eq_false_iff, ne_eq, idMatches_iff, not_or]

/-! ### The identity and the phase play no part in a frame -/

/-- A state with another `CHIP_ID`, `ID_OK` and `PHASE`. -/
def State.withIdentity (id : Option Byte) (ok : Bool) (p : Phase) (s : State) : State :=
  { s with chipId := id, idOk := ok, phase := p }

section
variable (id : Option Byte) (ok : Bool) (p : Phase) (s : State)

theorem State.withIdentity_answerByte (j : Nat) : (s.withIdentity id ok p).answerByte j = s.answerByte j :=
  State.answerByte_congr rfl rfl rfl rfl j

theorem State.withIdentity_trimBytes (j : Nat) : (s.withIdentity id ok p).trimBytes j = s.trimBytes j :=
  State.trimBytes_congr fun i => State.withIdentity_answerByte id ok p s (j + i)

theorem State.withIdentity_framed (ts : List Byte) :
    (s.withIdentity id ok p).framed ts = (s.framed ts).withIdentity id ok p := by
  have hx : (s.withIdentity id ok p).exchanges 0 ts = s.exchanges 0 ts :=
    State.exchanges_congr (fun j => State.withIdentity_answerByte id ok p s (0 + j)) ts
  simp only [State.framed, State.sent, hx]
  rfl

theorem State.withIdentity_initFrames :
    (s.withIdentity id ok p).initFrames = s.initFrames.withIdentity id ok p := by
  simp only [State.initFrames, State.withIdentity_framed]
  rfl

theorem State.withIdentity_trimFrames :
    (s.withIdentity id ok p).trimFrames = s.trimFrames.withIdentity id ok p := by
  simp only [State.trimFrames, State.withIdentity_framed]

theorem State.withIdentity_configured :
    (s.withIdentity id ok p).configured = s.configured.withIdentity id ok p := rfl

@[simp] theorem State.withIdentity_trim : (s.withIdentity id ok p).trim = s.trim := rfl

@[simp] theorem State.withIdentity_withIdentity (id' : Option Byte) (ok' : Bool) (p' : Phase) :
    (s.withIdentity id ok p).withIdentity id' ok' p' = s.withIdentity id' ok' p' := rfl

theorem State.withIdentity_withTrim (m : Memory Byte) :
    (s.withIdentity id ok p).withTrim m = (s.withTrim m).withIdentity id ok p := rfl

/-- BEGIN's end writes `PHASE`, so the one before is not seen. -/
theorem State.withIdentity_finishBegin (r : Bool) : (s.withIdentity id ok p).finishBegin r =
    { s with
      chipId := id
      idOk := ok
      phase := if r then .ready else .unusable
      results := s.results ++ [.bool r]
      work := WorkRegs.noValue } := rfl

end

/-! ### The two ends of BEGIN (43_identity R206, R208) -/

/-- The pin set-up and the ID read frame, with which every BEGIN starts. -/
def State.idFrame (s : State) : State := s.configured.framed (readBytes Config.idAddr 1)

theorem State.withIdentity_idFrame (id : Option Byte) (ok : Bool) (p : Phase) (s : State) :
    (s.withIdentity id ok p).idFrame = s.idFrame.withIdentity id ok p := by
  rw [State.idFrame, State.withIdentity_configured, State.withIdentity_framed, State.idFrame]

theorem State.checked_eq (s : State) : s.checked =
    s.idFrame.withIdentity (some (s.answerByte 1)) (idMatches (s.answerByte 1)) s.phase := by
  rw [← State.configured_answerByte]
  rfl

theorem State.loaded_eq (s : State) : s.loaded =
    (s.idFrame.initFrames.trimFrames.withTrim (Memory.writeList s.trim 0 (s.trimBytes 8))).withIdentity
      (some (s.answerByte 1)) (idMatches (s.answerByte 1)) s.phase := by
  rw [State.loaded, State.checked_eq, State.withIdentity_initFrames, State.withIdentity_trimFrames,
    State.withIdentity_withTrim]

@[simp] theorem State.idFrame_results (s : State) : s.idFrame.results = s.results := rfl

@[simp] theorem State.checked_results (s : State) : s.checked.results = s.results := rfl

@[simp] theorem State.loaded_results (s : State) : s.loaded.results = s.results := by
  rw [State.loaded, State.withTrim_results, State.trimFrames_results, State.initFrames_results, State.checked_results]

/-- BEGIN's end after an ID mismatch, whatever the identity and the phase were before (43_identity R211). -/
theorem State.withIdentity_checked_finishBegin (id : Option Byte) (ok : Bool) (p : Phase) (r : Bool) (s : State) :
    (s.withIdentity id ok p).checked.finishBegin r = s.checked.finishBegin r := by
  rw [State.checked_eq, State.checked_eq, State.withIdentity_answerByte, State.withIdentity_idFrame,
    State.withIdentity_withIdentity, State.withIdentity_finishBegin, State.withIdentity_finishBegin]

/-- BEGIN's end after its last trim frame, whatever the identity and the phase were before (43_identity R211). -/
theorem State.withIdentity_loaded_finishBegin (id : Option Byte) (ok : Bool) (p : Phase) (r : Bool) (s : State) :
    (s.withIdentity id ok p).loaded.finishBegin r = s.loaded.finishBegin r := by
  rw [State.loaded_eq, State.loaded_eq, State.withIdentity_answerByte, State.withIdentity_trimBytes,
    State.withIdentity_idFrame, State.withIdentity_initFrames, State.withIdentity_trimFrames, State.withIdentity_trim,
    State.withIdentity_withTrim, State.withIdentity_withIdentity, State.withIdentity_finishBegin,
    State.withIdentity_finishBegin]

theorem exec_begin_match {s : State} (h : idMatches (s.answerByte 1) = true) :
    exec .begin s = .next (s.loaded.finishBegin true) := by
  rw [exec_begin_eq, if_pos h]

theorem exec_begin_mismatch {s : State} (h : idMatches (s.answerByte 1) = false) :
    exec .begin s = .next (s.checked.finishBegin false) := by
  rw [exec_begin_eq, if_neg (Bool.eq_false_iff.1 h)]

@[simp] theorem State.finishBegin_phase (ok : Bool) (s : State) :
    (s.finishBegin ok).phase = if ok then .ready else .unusable := rfl

@[simp] theorem State.finishBegin_results (ok : Bool) (s : State) :
    (s.finishBegin ok).results = s.results ++ [.bool ok] := rfl

/-- The events of a BEGIN that passed its check, in order (43_identity R206, R207). -/
theorem State.loaded_ev (s : State) : s.loaded.ev = s.ev ++ setupEvents s.cfg ++
    frameEvents s.cfg (s.exchanges 0 (readBytes Config.idAddr 1)) ++
    frameEvents s.cfg (s.exchanges 2 (writeBytes Config.ctrlHumAddr (Config.ctrlHumByte s.cfg.settings))) ++
    frameEvents s.cfg (s.exchanges 4 (writeBytes Config.ctrlMeasAddr (Config.ctrlMeasByte s.cfg.settings))) ++
    frameEvents s.cfg (s.exchanges 6 (writeBytes Config.configAddr (Config.configByte s.cfg.settings))) ++
    frameEvents s.cfg (s.exchanges 8 (readBytes Config.tempDigAddr 6)) ++
    frameEvents s.cfg (s.exchanges 15 (readBytes Config.pressDigAddr 18)) ++
    frameEvents s.cfg (s.exchanges 34 (readBytes Config.humDigAddr1 1)) ++
    frameEvents s.cfg (s.exchanges 36 (readBytes Config.humDigAddr2 7)) := by
  have hinit : ∀ i, s.checked.initFrames.answerByte i = s.answerByte (8 + i) := fun i => by
    rw [State.initFrames_answerByte, State.checked_answerByte, ← Nat.add_assoc]
  have hcfg : s.checked.cfg = s.cfg := rfl
  have hinitCfg : s.checked.initFrames.cfg = s.cfg := (State.initFrames_cfg _).trans hcfg
  rw [State.loaded, State.withTrim_ev, State.trimFrames_ev 8 hinitCfg hinit,
    State.initFrames_ev 2 hcfg s.checked_answerByte, State.checked_ev]

/-! ### `PHASE` (43_identity R210) -/

theorem exec_phase_of_ne_begin {i : Instr} {s t : State} (hi : i ≠ .begin) (h : exec i s = .next t) :
    t.phase = s.phase := by
  cases exec_next h with
  | raised hr =>
    obtain ⟨r, w, rfl⟩ := hr.state
    rfl
  | beginOk _ hb => exact absurd hb hi
  | beginNo _ hb => exact absurd hb hi
  | xfer8 _ _ _ ht => subst ht; rfl
  | rread _ _ _ _ ht => subst ht; rfl
  | rwrite _ _ _ _ ht => subst ht; rfl
  | pincfg _ ht => subst ht; rfl
  | idchk _ _ ht => subst ht; rfl
  | rdtrim _ _ ht => subst ht; rfl
  | rddata _ _ _ ht => subst ht; rfl
  | header _ _ _ ht => subst ht; rfl

/-! ### The statements of 43_identity -/

/-- Settles O37: the closed form of IDCHK, with the allow-list test as a proposition. -/
theorem identityCheck : Obligations.IdentityCheck := by
  refine fun s => ⟨fun hready => ?next,
    fun hunready => exec_unready hunready (.inr (.inr (.inr (.inl rfl))))⟩
  case next =>
    rw [exec_idchk_ready hready, ← idMatches_eq_decide]
    rfl

/-- Settles O38: BEGIN ends with its check, whose frame is the ID read. -/
theorem beginMismatch : Obligations.BeginMismatch := by
  intro s hfull hreduced
  have hno : idMatches (s.answerByte 1) = false := (idMatches_eq_false_iff _).2 ⟨hfull, hreduced⟩
  rw [exec_begin_mismatch hno, State.checked_eq, hno]
  rfl

/-- Settles O39: the two ends of BEGIN, the events of the frames joined, and the trim bytes read back. -/
theorem beginSequence : Obligations.BeginSequence := by
  refine ⟨fun s hfull hreduced => ⟨_, beginMismatch s hfull hreduced, rfl, rfl, rfl, rfl, rfl, s.checked_ev⟩,
    fun s hid => ?accepted⟩
  have hmatch : idMatches (s.answerByte 1) = true := (idMatches_iff _).2 hid
  refine ⟨_, exec_begin_match hmatch, ?next, s.loaded_ev, fun off => ?trim⟩
  case next =>
    have hframe : s.configured.framed [Config.idAddr ||| 0x80#8, 0x00#8] = s.idFrame := rfl
    rw [hframe, State.finishBegin_trim, State.loaded_trim, State.loaded_eq, hmatch, State.withIdentity_finishBegin]
    simp
  case trim => rw [State.finishBegin_trim, State.loaded_trim, Memory.read_writeList_zero, State.trimBytes]

/-- Settles O40: BEGIN's two ends write the phase that goes with what they return; no other instruction writes it. -/
theorem phaseIsWrittenByBeginOnly : Obligations.PhaseIsWrittenByBeginOnly := by
  refine ⟨fun s => ?begin, fun _ _ _ => exec_phase_of_ne_begin⟩
  rw [← idMatches_iff]
  cases h : idMatches (s.answerByte 1)
  case true => exact ⟨_, exec_begin_match h, by simp⟩
  case false => exact ⟨_, exec_begin_mismatch h, by simp⟩

/-- Settles O41: `PHASE` is one of the three elements that no frame reads and BEGIN's end overwrites. -/
theorem beginIgnoresThePhase : Obligations.BeginIgnoresThePhase := by
  intro s p
  change exec .begin (s.withIdentity s.chipId s.idOk p) = exec .begin s
  rw [exec_begin_eq, exec_begin_eq, State.withIdentity_answerByte, State.withIdentity_loaded_finishBegin,
    State.withIdentity_checked_finishBegin]

/-- Settles O36: the test is membership of the two, which the gap between them keeps apart. -/
theorem allowListHasTwoEntries : Obligations.AllowListHasTwoEntries :=
  ⟨chipIdFull_ne_chipIdReduced, idMatches_iff⟩

end Sys2Proof.Machine

/-! What the statements of 44_sample need: what RDDATA does in each of its three cases, what a slot holds after it, that `CHIP_ID`
and `ID_OK` play no part in it, and its events without the slave's answers. -/

namespace Sys2Proof.Machine

/-! ### The faults of RDDATA (44_sample R230, R235) -/

theorem exec_rddata_notReady {s : State} (hphase : s.phase ≠ .ready) :
    exec .rddata s = .next (s.raise .notReady (commandWord .rddata)) := by
  simp only [exec, execRddata, if_neg hphase]

theorem exec_rddata_unready {s : State} (hphase : s.phase = .ready) (hpins : s.pinsReady = false) :
    exec .rddata s = .next (s.raise .pinsUnconfigured (commandWord .rddata)) := by
  simp only [exec, execRddata, if_pos hphase, State.withPins_unready hpins]

theorem commandWord_rddata : commandWord .rddata = some 0x00000007#32 := rfl

/-! ### Widening (44_sample R231) -/

theorem eight_le_rawW : 8 ≤ Config.rawW := Nat.le_add_right 8 Config.rawExtra

theorem widen_toNat (b : Byte) : (widen b).toNat = b.toNat :=
  BitVec.toNat_setWidth_of_le eight_le_rawW

theorem widen_getLsbD (b : Byte) (i : Nat) : (widen b).getLsbD i = b.getLsbD i := by
  rw [widen, BitVec.getLsbD_setWidth, Bool.and_eq_right_iff_imp, decide_eq_true_iff]
  intro hbit
  exact (BitVec.lt_of_getLsbD hbit).trans_le eight_le_rawW

/-! ### What RDDATA leaves in READY (44_sample R230) -/

/-- The events of RDDATA's three read frames, in order. -/
def State.dataEvents (s : State) : List Event :=
  frameEvents s.cfg (s.exchanges 0 (readBytes Config.pressAddr 3)) ++
    frameEvents s.cfg (s.exchanges 4 (readBytes Config.tempAddr 3)) ++
    frameEvents s.cfg (s.exchanges 8 (readBytes Config.humAddr 2))

theorem State.sampled8_ev (s : State) : s.sampled8.ev = s.ev ++ s.dataEvents := by
  simp only [State.sampled8, State.dataFrames_ev, State.dataEvents, List.append_assoc]

theorem State.sampled8_cfg (s : State) : s.sampled8.cfg = s.cfg := rfl

theorem State.sampled8_phase (s : State) : s.sampled8.phase = s.phase := rfl

theorem State.sampled8_pinsReady (s : State) : s.sampled8.pinsReady = s.pinsReady := by
  change s.dataFrames.pinsReady = s.pinsReady
  rw [State.dataFrames, State.framed_pinsReady, State.framed_pinsReady, State.framed_pinsReady]

theorem State.sampled8_stage (s : State) : s.sampled8.stage = Memory.writeList s.stage 0 s.sampleBytes := by
  simp only [State.sampled8]

theorem State.sampled8_raw (s : State) : s.sampled8.raw = s.widened := by
  simp only [State.sampled8]

theorem State.sampled8_complete_eq (s : State) (r : Result) : s.sampled8.complete r = { s.dataFrames with
    stage := (s.sampled8.complete r).stage
    raw := (s.sampled8.complete r).raw
    results := s.results ++ [r]
    work := WorkRegs.noValue } := by
  simp only [State.complete, State.sampled8, State.dataFrames_results]

theorem State.sampled8_stage_read (s : State) (j : Nat) :
    Memory.read s.sampled8.stage j = s.sampleBytes[j]?.or (Memory.read s.stage j) := by
  rw [State.sampled8_stage, Memory.read_writeList_zero]

theorem State.sampled8_raw_read (s : State) (j : Nat) :
    Memory.read s.sampled8.raw j = (s.sampleBytes[j]?.map widen).or (Memory.read s.raw j) := by
  rw [State.sampled8_raw, State.widened_read]

/-- Every slot after RDDATA is the widening of its byte: none of an earlier call survives. -/
theorem State.sampled8_complete_read (s : State) (r : Result) {j : Nat} (hj : j < 8) :
    ∃ b, s.sampleBytes[j]? = some b ∧ Memory.read (s.sampled8.complete r).stage j = some b ∧
      Memory.read (s.sampled8.complete r).raw j = some (widen b) := by
  have hb := List.getElem?_eq_getElem (by rwa [State.sampleBytes_length] : j < s.sampleBytes.length)
  rw [State.complete_stage, State.complete_raw, State.sampled8_stage_read, State.sampled8_raw_read, hb]
  exact ⟨_, rfl, rfl, rfl⟩

/-- The two bytes of the humidity region are the last of the eight. -/
theorem State.sampleBytes_getElem?_hum (s : State) {k : Nat} (hk : k < 2) :
    s.sampleBytes[6 + k]? = some (s.answerByte (9 + k)) := by
  rw [State.sampleBytes, List.getElem?_append_right (by simp), State.answerBytes_getElem?]
  simp [hk]

/-! ### `CHIP_ID` and `ID_OK` play no part in RDDATA (44_sample R233) -/

section
variable (id : Option Byte) (ok : Bool) (p : Phase) (s : State)

@[simp] theorem State.withIdentity_stage : (s.withIdentity id ok p).stage = s.stage := rfl

@[simp] theorem State.withIdentity_raw : (s.withIdentity id ok p).raw = s.raw := rfl

@[simp] theorem State.withIdentity_ev : (s.withIdentity id ok p).ev = s.ev := rfl

theorem State.withIdentity_complete (r : Result) :
    (s.withIdentity id ok p).complete r = (s.complete r).withIdentity id ok p := rfl

theorem State.withIdentity_dataFrames :
    (s.withIdentity id ok p).dataFrames = s.dataFrames.withIdentity id ok p := by
  simp only [State.dataFrames, State.withIdentity_framed]

theorem State.withIdentity_sampleBytes : (s.withIdentity id ok p).sampleBytes = s.sampleBytes := by
  simp only [← State.regionBytes_data]
  exact State.regionBytes_congr dataRegions fun j => State.withIdentity_answerByte id ok p s (0 + j)

theorem State.withIdentity_withStage (m : Memory Byte) :
    (s.withIdentity id ok p).withStage m = (s.withStage m).withIdentity id ok p := rfl

theorem State.withIdentity_widenSlot (j : Nat) :
    (s.withIdentity id ok p).widenSlot j = (s.widenSlot j).withIdentity id ok p := by
  simp only [State.widenSlot_eq]
  rfl

theorem State.withIdentity_widenAll : (s.withIdentity id ok p).widenAll = s.widenAll.withIdentity id ok p :=
  List.foldl_hom (State.withIdentity id ok p) fun t j => State.withIdentity_widenSlot id ok p t j

theorem State.withIdentity_widened : (s.withIdentity id ok p).widened = s.widened := by
  simp only [State.widened, State.withIdentity_dataFrames, State.withIdentity_sampleBytes, State.withIdentity_stage,
    State.withIdentity_withStage, State.withIdentity_widenAll, State.withIdentity_raw]

theorem State.withIdentity_sampled8 : (s.withIdentity id ok p).sampled8 = s.sampled8.withIdentity id ok p := by
  simp only [State.sampled8, State.withIdentity_dataFrames, State.withIdentity_sampleBytes, State.withIdentity_stage,
    State.withIdentity_widened]
  simp only [State.withIdentity]

end

/-- RDDATA commutes with a change of `CHIP_ID` and `ID_OK`, whichever of its three cases it takes. -/
theorem exec_rddata_withIdentity {s t : State} (id : Option Byte) (ok : Bool) (h : exec .rddata s = .next t) :
    exec .rddata (s.withIdentity id ok s.phase) = .next (t.withIdentity id ok t.phase) := by
  by_cases hphase : s.phase = .ready
  case neg =>
    obtain rfl := Host.Outcome.next.inj ((exec_rddata_notReady hphase).symm.trans h)
    exact exec_rddata_notReady hphase
  case pos =>
    cases hpins : s.pinsReady
    case false =>
      obtain rfl := Host.Outcome.next.inj ((exec_rddata_unready hphase hpins).symm.trans h)
      exact exec_rddata_unready hphase hpins
    case true =>
      obtain rfl := Host.Outcome.next.inj ((exec_rddata_ready hphase hpins).symm.trans h)
      rw [exec_rddata_ready (s := s.withIdentity id ok s.phase) hphase hpins, State.withIdentity_sampled8,
        State.withIdentity_complete]
      rfl

/-! ### The events of RDDATA without the answers (44_sample R234) -/

/-- A blinded byte is the byte answered with zeros. -/
theorem byteEvents_map_blind (c : DeviceConfig) (x : Byte × Byte) :
    (byteEvents c x).map Event.blind = byteEvents c (x.1, 0x00#8) := by
  unfold byteEvents
  cases c.transport
  case sw => simp [bitEvents, Event.blind]
  case hw => rfl

theorem openEvents_map_blind (c : DeviceConfig) : (openEvents c).map Event.blind = openEvents c := by
  unfold openEvents
  cases c.transport <;> rfl

theorem closeEvents_map_blind (c : DeviceConfig) : (closeEvents c).map Event.blind = closeEvents c := by
  unfold closeEvents
  cases c.transport <;> rfl

/-- A blinded frame depends on the bytes sent only. -/
theorem frameEvents_exchanges_map_blind (c : DeviceConfig) (s : State) (j : Nat) (ts : List Byte) :
    (frameEvents c (s.exchanges j ts)).map Event.blind = frameEvents c (ts.map (·, 0x00#8)) := by
  have hbytes : ((s.exchanges j ts).flatMap (byteEvents c)).map Event.blind =
      (ts.map (·, 0x00#8)).flatMap (byteEvents c) := by
    induction ts generalizing j with
    | nil => rfl
    | cons t ts ih =>
      rw [State.exchanges, List.flatMap_cons, List.map_append, byteEvents_map_blind, ih]
      rfl
  rw [frameEvents, List.map_append, List.map_append, openEvents_map_blind, closeEvents_map_blind, hbytes]
  rfl

/-- Blinded, RDDATA's events depend on the configuration only. -/
theorem State.dataEvents_map_blind {s t : State} (hcfg : t.cfg = s.cfg) :
    t.dataEvents.map Event.blind = s.dataEvents.map Event.blind := by
  simp only [State.dataEvents, List.map_append, frameEvents_exchanges_map_blind, hcfg]

/-! ### The statements of 44_sample -/

/-- Settles O42: the closed form of RDDATA, its three frames counted from the first answer, and its bytes and slots read back. -/
theorem rawSampleReader : Obligations.RawSampleReader := by
  refine ⟨fun s => exec_rddata_notReady, fun s hphase hpins =>
    ⟨_, exec_rddata_ready hphase hpins, s.sampled8_complete_eq (.bool true), ?events, fun j => ?stage, fun j => ?raw⟩⟩
  case events => simp only [State.complete_ev, State.sampled8_ev, State.dataEvents, readBytes, List.append_assoc]
  case stage => rw [State.complete_stage, State.sampled8_stage_read, State.sampleBytes]
  case raw =>
    rw [State.complete_raw, State.sampled8_raw_read, State.sampleBytes]
    rfl

/-- Settles O43: every slot is the widening of its `STAGE` byte, which adds zeros above bit 7. -/
theorem rawSlotsAreZeroExtended : Obligations.RawSlotsAreZeroExtended := by
  refine fun s hphase hpins => ⟨_, exec_rddata_ready hphase hpins, fun j hj => ?_⟩
  obtain ⟨b, -, hstage, hraw⟩ := s.sampled8_complete_read (.bool true) hj
  exact ⟨b, widen b, hstage, hraw, widen_toNat b, fun i _ => widen_getLsbD b i,
    fun i hi => (widen_getLsbD b i).trans (BitVec.getLsbD_of_ge b i hi)⟩

/-- Settles O45: RDDATA commutes with a change of `CHIP_ID` and `ID_OK`, so its last frame and the slots of that frame are those
of the state without the change. -/
theorem rddataIgnoresTheVariant : Obligations.RddataIgnoresTheVariant := by
  refine ⟨fun s id ok hphase hpins => ?_, fun s t id ok h => exec_rddata_withIdentity id ok h⟩
  refine ⟨_, frameEvents s.cfg (s.exchanges 0 (readBytes Config.pressAddr 3)) ++
      frameEvents s.cfg (s.exchanges 4 (readBytes Config.tempAddr 3)),
    exec_rddata_withIdentity id ok (exec_rddata_ready hphase hpins), ?events, fun k hk => ?slot⟩
  case events =>
    simp only [State.withIdentity_ev, State.complete_ev, State.sampled8_ev, State.dataEvents, readBytes,
      List.append_assoc]
  case slot =>
    obtain ⟨b, hb, -, hraw⟩ := s.sampled8_complete_read (.bool true) (by omega : 6 + k < 8)
    obtain rfl := Option.some.inj (hb.symm.trans (s.sampleBytes_getElem?_hum hk))
    rwa [State.withIdentity_raw]

/-- Settles O46: the first RDDATA leaves the phase, the pins' readiness and `CFG` as the second needs them. -/
theorem rddataIsIdempotent : Obligations.RddataIsIdempotent := by
  intro s hphase hpins
  have hpins' : (s.sampled8.complete (.bool true)).pinsReady = true := by
    rwa [State.complete_pinsReady, State.sampled8_pinsReady]
  have hphase' : (s.sampled8.complete (.bool true)).phase = .ready := by
    rwa [State.complete_phase, State.sampled8_phase]
  refine ⟨_, _, s.dataEvents, (s.sampled8.complete (.bool true)).dataEvents, exec_rddata_ready hphase hpins,
    exec_rddata_ready hphase' hpins', ?first, ?second, ?blind, fun j hj => ?slots⟩
  case first => rw [State.complete_ev, State.sampled8_ev]
  case second => rw [State.complete_ev (State.sampled8 _), State.sampled8_ev]
  case blind => exact State.dataEvents_map_blind (by rw [State.complete_cfg, State.sampled8_cfg])
  case slots =>
    obtain ⟨b, hb, -, hfirst⟩ := s.sampled8_complete_read (.bool true) hj
    obtain ⟨b', hb', -, hsecond⟩ := (s.sampled8.complete (.bool true)).sampled8_complete_read (.bool true) hj
    exact ⟨⟨b, hb, hfirst⟩, b', hb', hsecond⟩

/-- Settles O44: the phase is checked before the pins. -/
theorem rddataOutsideReadyFaults : Obligations.RddataOutsideReadyFaults := by
  intro s hphase
  rw [exec_rddata_notReady hphase, commandWord_rddata]
  rfl

end Sys2Proof.Machine

/-! What the statement of 60_exceptions R244 needs: the refusal that construction leaves; the rules for a step that takes a
reserved word and for a step of a refused instance stand above. -/

namespace Sys2Proof.Machine

theorem State.construct_refused_of_not_wellFormed {c : DeviceConfig} (h : c.wellFormed = false) :
    (State.construct c).refused = some .malformedConfig := by
  rw [State.construct_refused, if_neg (ne_true_of_eq_false h)]

/-! ### The statement of 60_exceptions -/

/-- Settles O17: construction raises one refusal, a step that takes a word without a decoding the other, and `fetch` stops at
either before it looks at a fault or at the queue. -/
theorem refusalsAreFinal : Obligations.RefusalsAreFinal := by
  refine ⟨rfl, rfl, fun c => ?construction, fun s w e rest => ?reserved, fun s r => ?final⟩
  case construction => exact State.construct_refused_of_not_wellFormed
  case reserved => exact step_of_decode_error
  case final => exact step_of_refused

end Sys2Proof.Machine

/-! What the statements on the decoder need: that decoding and encoding are inverse on well-formed instructions, and which
fields a mask of 30_encoding R98 covers. -/

namespace Sys2Proof

/-! ### Decoding inverts encoding (30_encoding R94 to R97) -/

/-- A laid-out word has its reserved fields zero, so its `OP` selects the row. -/
theorem decode_commandOf (op : BitVec 4) (a b : Byte) :
    decode (.command (commandOf op a b)) = decodeOp (commandOf op a b) := by
  simp [decode, decodeCommand]

theorem Instr.wellFormed_rread_iff {a : Byte} {n : Nat} : (Instr.rread a n).wellFormed = true ↔ n ≤ 255 :=
  decide_eq_true_iff

theorem decode_encode {i : Instr} (h : i.wellFormed = true) : decode (encode i) = .ok i := by
  cases i with
  | xfer8 tx => simp [encode, decode_commandOf, decodeOp]
  | rread a n =>
    have hfits : n % 256 = n := Nat.mod_eq_of_lt (Nat.lt_succ_of_le (Instr.wellFormed_rread_iff.1 h))
    simp [encode, decode_commandOf, decodeOp, hfits]
  | rwrite a d => simp [encode, decode_commandOf, decodeOp]
  | pincfg | idchk | rdtrim | begin | rddata =>
    simp [encode, decode_commandOf, decodeOp, decodeNoOperand]
  | frameRdHdr a => exact congrArg Except.ok (decodeHeader_read a)
  | frameWrHdr a => exact congrArg Except.ok (decodeHeader_write a)

/-! ### Encoding inverts decoding -/

theorem decodeHeader_wellFormed (b : Byte) : (decodeHeader b).wellFormed = true := by
  unfold decodeHeader
  split <;> rfl

/-- With the reserved fields zero a word is laid out by the other three. -/
theorem commandOf_fields {w : Cmd} (h0 : fieldRsv0 w = 0) (h1 : fieldRsv1 w = 0) :
    commandOf (fieldOp w) (fieldA w) (fieldB w) = w := by
  have hw := command_eq_fields w
  rw [h0, h1] at hw
  exact hw.symm

theorem decodeNoOperand_eq_ok_iff {w : Cmd} {i j : Instr} :
    decodeNoOperand w i = .ok j ↔ (fieldA w = 0 ∧ fieldB w = 0) ∧ i = j := by
  unfold decodeNoOperand
  split
  case isTrue hunused => simp [hunused]
  case isFalse hunused => simp only [reduceCtorEq, hunused, false_and]

/-- The word of an `OP` value is the encoding of the operation that the value selects. -/
theorem encode_of_decodeOp {w : Cmd} {i : Instr} (h : decodeOp w = .ok i) :
    encode i = .command (commandOf (fieldOp w) (fieldA w) (fieldB w)) ∧ i.wellFormed = true := by
  have hop {n : Nat} (hn : (fieldOp w).toNat = n) : fieldOp w = BitVec.ofNat 4 n := by
    rw [← hn, BitVec.ofNat_toNat, BitVec.setWidth_eq]
  unfold decodeOp at h
  split at h
  case h_1 hn =>
    split at h
    case isTrue ha =>
      obtain rfl := Except.ok.inj h
      exact ⟨by rw [hop hn, ha]; rfl, rfl⟩
    case isFalse => cases h
  case h_2 hn =>
    obtain rfl := Except.ok.inj h
    refine ⟨?_, Instr.wellFormed_rread_iff.2 (Nat.le_of_lt_succ (fieldB w).isLt)⟩
    rw [hop hn, encode, BitVec.ofNat_toNat, BitVec.setWidth_eq]
    rfl
  case h_3 hn =>
    obtain rfl := Except.ok.inj h
    exact ⟨by rw [hop hn]; rfl, rfl⟩
  case h_4 hn | h_5 hn | h_6 hn | h_7 hn | h_8 hn =>
    obtain ⟨⟨ha, hb⟩, rfl⟩ := decodeNoOperand_eq_ok_iff.1 h
    exact ⟨by rw [hop hn, ha, hb]; rfl, rfl⟩
  case h_9 => cases h

theorem encode_of_decode {c : Code} {i : Instr} (h : decode c = .ok i) : encode i = c ∧ i.wellFormed = true := by
  cases c with
  | header b =>
    obtain rfl := Except.ok.inj h
    exact ⟨encode_decodeHeader b, decodeHeader_wellFormed b⟩
  | command w =>
    simp only [decode, decodeCommand] at h
    split at h
    case isTrue hrsv =>
      have hw := encode_of_decodeOp h
      rwa [commandOf_fields hrsv.1 hrsv.2] at hw
    case isFalse => cases h

/-! ### The match and mask table (30_encoding R98) -/

/-- A word is an operation iff it is the operation's encoding. -/
theorem decode_eq_ok_iff {c : Code} {i : Instr} : decode c = .ok i ↔ i.wellFormed = true ∧ encode i = c := by
  refine ⟨fun h => (encode_of_decode h).symm, ?_⟩
  rintro ⟨hwf, rfl⟩
  exact decode_encode hwf

theorem commandOf_eq_iff {w : Cmd} {op : BitVec 4} {a b : Byte} : commandOf op a b = w ↔
    (fieldRsv1 w = 0 ∧ fieldRsv0 w = 0 ∧ fieldOp w = op) ∧ a = fieldA w ∧ b = fieldB w := by
  constructor
  · rintro rfl
    simp
  · rintro ⟨⟨h1, h0, rfl⟩, rfl, rfl⟩
    exact commandOf_fields h0 h1

/-- A mask keeps of each field what it covers of it. -/
theorem and_eq_commandOf_iff {w m : Cmd} {op : BitVec 4} {a b : Byte} : w &&& m = commandOf op a b ↔
    (fieldRsv1 w &&& fieldRsv1 m = 0 ∧ fieldRsv0 w &&& fieldRsv0 m = 0 ∧ fieldOp w &&& fieldOp m = op) ∧
      a = fieldA w &&& fieldA m ∧ b = fieldB w &&& fieldB m := by
  rw [eq_comm, commandOf_eq_iff]
  simp only [fieldRsv1, fieldRsv0, fieldOp, fieldA, fieldB, BitVec.extractLsb'_and]

/-- The words of XFER8 are those whose fields but `B` are zero. -/
theorem and_maskXfer8_iff {w : Cmd} : w &&& 0xFF00FFFF#32 = 0x00000000#32 ↔
    fieldRsv1 w = 0 ∧ fieldRsv0 w = 0 ∧ fieldOp w = 0 ∧ fieldA w = 0 := by
  change w &&& 0xFF00FFFF#32 = commandOf 0 0 0 ↔ _
  rw [and_eq_commandOf_iff]
  have h1 : fieldRsv1 0xFF00FFFF#32 = BitVec.allOnes 8 := by decide
  have hB : fieldB 0xFF00FFFF#32 = 0 := by decide
  have hA : fieldA 0xFF00FFFF#32 = BitVec.allOnes 8 := by decide
  have h0 : fieldRsv0 0xFF00FFFF#32 = BitVec.allOnes 4 := by decide
  have hop : fieldOp 0xFF00FFFF#32 = BitVec.allOnes 4 := by decide
  simp only [h1, hB, hA, h0, hop, BitVec.and_allOnes]
  simp [and_assoc, eq_comm]

/-- The words of RREAD and RWRITE are those with the row's `OP` and zero reserved fields. -/
theorem and_maskOperands_iff {w : Cmd} {op : BitVec 4} : w &&& 0xFF0000FF#32 = commandOf op 0 0 ↔
    fieldRsv1 w = 0 ∧ fieldRsv0 w = 0 ∧ fieldOp w = op := by
  rw [and_eq_commandOf_iff]
  have h1 : fieldRsv1 0xFF0000FF#32 = BitVec.allOnes 8 := by decide
  have hB : fieldB 0xFF0000FF#32 = 0 := by decide
  have hA : fieldA 0xFF0000FF#32 = 0 := by decide
  have h0 : fieldRsv0 0xFF0000FF#32 = BitVec.allOnes 4 := by decide
  have hop : fieldOp 0xFF0000FF#32 = BitVec.allOnes 4 := by decide
  simp only [h1, hB, hA, h0, hop, BitVec.and_allOnes]
  simp

theorem and_maskAll_iff {w v : Cmd} : w &&& 0xFFFFFFFF#32 = v ↔ w = v := by
  change w &&& BitVec.allOnes 32 = v ↔ _
  rw [BitVec.and_allOnes]

theorem decode_command_eq_xfer8_iff {w : Cmd} {tx : Byte} : decode (.command w) = .ok (.xfer8 tx) ↔
    w &&& 0xFF00FFFF#32 = 0x00000000#32 ∧ tx = fieldB w := by
  rw [decode_eq_ok_iff, and_maskXfer8_iff]
  simp only [encode, Code.command.injEq, commandOf_eq_iff]
  simp [Instr.wellFormed, and_assoc, eq_comm]

theorem decode_command_eq_rread_iff {w : Cmd} {a : Byte} {n : Nat} : decode (.command w) = .ok (.rread a n) ↔
    w &&& 0xFF0000FF#32 = 0x00000001#32 ∧ a = fieldA w ∧ n = (fieldB w).toNat := by
  have hlen : n ≤ 255 ∧ BitVec.ofNat 8 n = fieldB w ↔ n = (fieldB w).toNat := by
    rw [← BitVec.toNat_inj, BitVec.toNat_ofNat]
    have := (fieldB w).isLt
    omega
  rw [decode_eq_ok_iff, Instr.wellFormed_rread_iff, show 0x00000001#32 = commandOf 1 0 0 by decide,
    and_maskOperands_iff, ← hlen]
  simp only [encode, Code.command.injEq, commandOf_eq_iff]
  tauto

theorem decode_command_eq_rwrite_iff {w : Cmd} {a d : Byte} : decode (.command w) = .ok (.rwrite a d) ↔
    w &&& 0xFF0000FF#32 = 0x00000002#32 ∧ a = fieldA w ∧ d = fieldB w := by
  rw [decode_eq_ok_iff, show 0x00000002#32 = commandOf 2 0 0 by decide, and_maskOperands_iff]
  simp [encode, Instr.wellFormed, commandOf_eq_iff]

/-- An operation without operands is one word. -/
theorem decode_command_eq_iff_of_encode {w v : Cmd} {i : Instr} (hwf : i.wellFormed = true)
    (hi : encode i = .command v) : decode (.command w) = .ok i ↔ w &&& 0xFFFFFFFF#32 = v := by
  rw [decode_eq_ok_iff, hi, and_maskAll_iff]
  simp [hwf, eq_comm]

/-! ### The statements of 30_encoding on the decoder -/

/-- Settles O6: the decoder reads back from a laid-out word the fields the encoder put there. -/
theorem decodeEncode : Obligations.DecodeEncode :=
  fun _ => decode_encode

/-- Settles O7: a word that decodes has its reserved and unused fields zero, so its fields lay it out again. -/
theorem encodeDecode : Obligations.EncodeDecode :=
  fun _ _ => encode_of_decode

/-- Settles O8: a word decodes to an operation iff it is the operation's encoding, and each row's mask covers the fields that
the encoding fixes. -/
theorem matchAndMaskTable : Obligations.MatchAndMaskTable :=
  fun _ => ⟨fun _ => decode_command_eq_xfer8_iff, fun _ _ => decode_command_eq_rread_iff,
    fun _ _ => decode_command_eq_rwrite_iff, decode_command_eq_iff_of_encode rfl rfl,
    decode_command_eq_iff_of_encode rfl rfl, decode_command_eq_iff_of_encode rfl rfl,
    decode_command_eq_iff_of_encode rfl rfl, decode_command_eq_iff_of_encode rfl rfl⟩

/-- Settles O10: the fourteen words, decoded. -/
theorem exampleWords : Obligations.ExampleWords := by
  unfold Obligations.ExampleWords
  decide

end Sys2Proof

/-! What the whole-machine statements need: what frames leave alone, what an operation stores, and what it adds to `EV`; from
these, that every step keeps the invariant. -/

namespace Sys2Proof.Machine

/-! ### What bytes and frames leave alone (20_memory R72) -/

/-- As `FrameKeepsButFault`, and the clock latch is as before or high (10_state R28). -/
structure BusKeeps (s t : State) : Prop extends FrameKeepsButFault s t where
  latSck : t.lat .sck = s.lat .sck ∨ t.lat .sck = some true

theorem eq_or_trans {α : Type} {a b c : α} {p : α → Prop} (hba : b = a ∨ p b) (hcb : c = b ∨ p c) : c = a ∨ p c := by
  obtain rfl | h := hcb
  · exact hba
  · exact .inr h

namespace BusKeeps

variable {s t u : State}

/-- The lines, the peripheral, the refusal and the queue are as before: every other element may change. -/
theorem of_eq (hcfg : t.cfg = s.cfg) (hpins : t.pins = s.pins) (hstarted : t.hwStarted = s.hwStarted)
    (htxn : t.hwInTxn = s.hwInTxn) (hrefused : t.refused = s.refused) (hpending : t.pending = s.pending) :
    BusKeeps s t := by
  have hlat : ∀ l, t.lat l = s.lat l := fun l => by cases l <;> simp only [State.lat, hpins]
  have hdirn : ∀ l, t.dirn l = s.dirn l := fun l => by cases l <;> simp only [State.dirn, hpins]
  exact ⟨⟨hcfg, .inl (hlat _), hdirn, hstarted, .inl htxn, fun _ => ⟨hlat _, hlat _⟩, hrefused, hpending⟩, .inl (hlat _)⟩

theorem transport_eq (h : BusKeeps s t) : t.transport = s.transport :=
  congrArg DeviceConfig.transport h.cfg

theorem pinsReady_eq (h : BusKeeps s t) : t.pinsReady = s.pinsReady := by
  simp only [State.pinsReady, h.transport_eq, h.dirs, h.hwStarted]

theorem trans (h : BusKeeps s t) (h' : BusKeeps t u) : BusKeeps s u where
  cfg := h'.cfg.trans h.cfg
  latCs := eq_or_trans (p := (· = some true)) h.latCs h'.latCs
  dirs l := (h'.dirs l).trans (h.dirs l)
  hwStarted := h'.hwStarted.trans h.hwStarted
  hwInTxn := eq_or_trans (p := fun b => s.transport = .hw ∧ b = false) h.hwInTxn (h.transport_eq ▸ h'.hwInTxn)
  hwLatches hhw :=
    have hlatches := h.hwLatches hhw
    have hlatches' := h'.hwLatches (h.transport_eq.trans hhw)
    ⟨hlatches'.1.trans hlatches.1, hlatches'.2.trans hlatches.2⟩
  refused := h'.refused.trans h.refused
  pending := h'.pending.trans h.pending
  latSck := eq_or_trans (p := (· = some true)) h.latSck h'.latSck

end BusKeeps

theorem State.pinsAfter_hw {s : State} (h : s.transport = .hw) (ts : List Byte) : s.pinsAfter ts = s.pins := by
  rw [State.pinsAfter, h]

theorem State.sent_dirn (ts : List Byte) (s : State) (l : Line) : (s.sent ts).dirn l = s.dirn l := by
  obtain ⟨hcs, hsck, hmosi, hmiso⟩ := State.pinsAfter_dirs ts s
  cases l <;> assumption

theorem State.framed_dirn (ts : List Byte) (s : State) (l : Line) : (s.framed ts).dirn l = s.dirn l := by
  rw [← State.sent_dirn ts s l]
  cases l <;> rfl

/-- The clock latch is raised by the last bit of a software byte (10_state R28). -/
theorem State.pinsAfter_latSck (ts : List Byte) (s : State) :
    (s.pinsAfter ts).latSck = s.pins.latSck ∨ (s.pinsAfter ts).latSck = some true := by
  unfold State.pinsAfter
  split
  · exact ite_eq_or_eq _ _ _
  · exact .inl rfl

theorem State.framed_hwInTxn (ts : List Byte) (s : State) :
    (s.framed ts).hwInTxn = s.hwInTxn ∨ (s.transport = .hw ∧ (s.framed ts).hwInTxn = false) := by
  cases h : s.transport
  case hw => exact .inr ⟨rfl, State.framed_hwInTxn_hw h ts⟩
  case sw => exact .inl (by simp only [State.framed, h])

namespace BusKeeps

variable {s t : State}

theorem sent (ts : List Byte) (s : State) : BusKeeps s (s.sent ts) where
  cfg := rfl
  latCs := .inl (s.sent_lat_cs ts)
  dirs := s.sent_dirn ts
  hwStarted := rfl
  hwInTxn := .inl rfl
  hwLatches hhw := by simp only [State.lat, State.sent, State.pinsAfter_hw hhw, and_self]
  refused := rfl
  pending := rfl
  latSck := s.pinsAfter_latSck ts

theorem framed (ts : List Byte) (s : State) : BusKeeps s (s.framed ts) where
  cfg := rfl
  latCs := .inr rfl
  dirs := s.framed_dirn ts
  hwStarted := rfl
  hwInTxn := s.framed_hwInTxn ts
  hwLatches hhw := by simp only [State.lat, State.framed, State.pinsAfter_hw hhw, and_self]
  refused := rfl
  pending := rfl
  latSck := s.pinsAfter_latSck ts

theorem identified (s : State) : BusKeeps s s.identified :=
  (framed (readBytes Config.idAddr 1) s).trans (of_eq rfl rfl rfl rfl rfl rfl)

theorem trimFrames (s : State) : BusKeeps s s.trimFrames :=
  (((framed _ s).trans (framed _ _)).trans (framed _ _)).trans (framed _ _)

theorem initFrames (s : State) : BusKeeps s s.initFrames :=
  ((framed _ s).trans (framed _ _)).trans (framed _ _)

theorem dataFrames (s : State) : BusKeeps s s.dataFrames :=
  ((framed _ s).trans (framed _ _)).trans (framed _ _)

theorem withTrim (h : BusKeeps s t) (m : Memory Byte) : BusKeeps s (t.withTrim m) :=
  h.trans (of_eq rfl rfl rfl rfl rfl rfl)

theorem loaded (s : State) : BusKeeps s.configured s.loaded :=
  (((identified _).trans (initFrames _)).trans (trimFrames _)).withTrim _

theorem sampled8 (s : State) : BusKeeps s s.sampled8 :=
  (dataFrames s).trans (of_eq rfl rfl rfl rfl rfl rfl)

theorem complete (h : BusKeeps s t) (r : Result) : BusKeeps s (t.complete r) :=
  h.trans (of_eq rfl rfl rfl rfl rfl rfl)

theorem finishBegin (h : BusKeeps s t) (ok : Bool) : BusKeeps s (t.finishBegin ok) :=
  h.trans (of_eq rfl rfl rfl rfl rfl rfl)

theorem settle (h : BusKeeps s t) : BusKeeps s t.settle :=
  h.trans (of_eq rfl rfl rfl rfl rfl rfl)

end BusKeeps

/-- Every operation keeps what frames keep; PINCFG and BEGIN do after their pin set-up. -/
theorem exec_busKeeps {i : Instr} {s t : State} (h : exec i s = .next t) :
    (BusKeeps s t ∧ i ≠ .pincfg ∧ i ≠ .begin) ∨ (BusKeeps s.configured t ∧ (i = .pincfg ∨ i = .begin)) := by
  cases exec_next h with
  | raised hr =>
    obtain ⟨r, w, rfl⟩ := hr.state
    exact .inl ⟨.of_eq rfl rfl rfl rfl rfl rfl, hr.notPincfg, hr.notBegin⟩
  | xfer8 _ _ hi ht => subst hi ht; exact .inl ⟨(BusKeeps.sent _ s).complete _, by simp, by simp⟩
  | rread _ _ _ hi ht => subst hi ht; exact .inl ⟨(BusKeeps.framed _ s).complete _, by simp, by simp⟩
  | rwrite _ _ _ hi ht => subst hi ht; exact .inl ⟨(BusKeeps.framed _ s).complete _, by simp, by simp⟩
  | idchk _ hi ht => subst hi ht; exact .inl ⟨(BusKeeps.identified s).complete _, by simp, by simp⟩
  | rdtrim _ hi ht => subst hi ht; exact .inl ⟨((BusKeeps.trimFrames s).withTrim _).complete _, by simp, by simp⟩
  | rddata _ _ hi ht => subst hi ht; exact .inl ⟨(BusKeeps.sampled8 s).complete _, by simp, by simp⟩
  | header _ _ hi ht =>
    subst ht
    exact .inl ⟨(BusKeeps.sent _ s).settle, by rintro rfl; simp at hi, by rintro rfl; simp at hi⟩
  | pincfg hi ht => subst hi ht; exact .inr ⟨.of_eq rfl rfl rfl rfl rfl rfl, .inl rfl⟩
  | beginOk _ hi ht => subst hi ht; exact .inr ⟨(BusKeeps.loaded s).finishBegin _, .inr rfl⟩
  | beginNo _ hi ht => subst hi ht; exact .inr ⟨(BusKeeps.identified s.configured).finishBegin _, .inr rfl⟩

theorem exec_busKeeps_of_ne {i : Instr} {s t : State} (hpincfg : i ≠ .pincfg) (hbegin : i ≠ .begin)
    (h : exec i s = .next t) : BusKeeps s t := by
  obtain ⟨hkeeps, -⟩ | ⟨-, hi⟩ := exec_busKeeps h
  · exact hkeeps
  · exact absurd hi (not_or.2 ⟨hpincfg, hbegin⟩)

/-- Ready pins stay ready (44_sample R230). -/
theorem exec_pinsReady {i : Instr} {s t : State} (h : exec i s = .next t) (hready : s.pinsReady = true) :
    t.pinsReady = true := by
  obtain ⟨hkeeps, -⟩ | ⟨hkeeps, -⟩ := exec_busKeeps h
  · rwa [hkeeps.pinsReady_eq]
  · rw [hkeeps.pinsReady_eq, State.configured_pinsReady]

/-! ### What an operation stores (10_state R38) -/

/-- What becomes of the buffers, the identity, the working registers and `FAULT`. -/
structure Stores (i : Instr) (s t : State) : Prop where
  trim     : t.trim = s.trim ∨
    ((i = .rdtrim ∨ i = .begin) ∧ ∃ j, t.trim = Memory.writeList s.trim 0 (s.trimBytes j))
  samples  : (t.stage = s.stage ∧ t.raw = s.raw) ∨
    (i = .rddata ∧ t.stage = Memory.writeList s.stage 0 s.sampleBytes ∧ t.raw = s.widened)
  identity : (t.chipId = s.chipId ∧ t.idOk = s.idOk) ∨ ((i = .idchk ∨ i = .begin) ∧ t.chipId.isSome)
  work     : t.work = s.work ∨ t.work = WorkRegs.noValue
  fault    : t.fault = s.fault ∨ Raised i s t

/-- An operation that completes with no buffer and no identity written. -/
theorem Stores.of_eq {i : Instr} {s t : State} (htrim : t.trim = s.trim) (hstage : t.stage = s.stage)
    (hraw : t.raw = s.raw) (hid : t.chipId = s.chipId) (hok : t.idOk = s.idOk) (hwork : t.work = WorkRegs.noValue)
    (hfault : t.fault = s.fault) : Stores i s t :=
  ⟨.inl htrim, .inl ⟨hstage, hraw⟩, .inl ⟨hid, hok⟩, .inr hwork, .inl hfault⟩

theorem exec_stores {i : Instr} {s t : State} (h : exec i s = .next t) : Stores i s t := by
  cases exec_next h with
  | raised hr =>
    obtain ⟨r, w, rfl⟩ := hr.state
    exact ⟨.inl rfl, .inl ⟨rfl, rfl⟩, .inl ⟨rfl, rfl⟩, .inl rfl, .inr hr⟩
  | xfer8 _ _ _ ht => subst ht; exact .of_eq rfl rfl rfl rfl rfl rfl rfl
  | rread _ _ _ _ ht => subst ht; exact .of_eq rfl rfl rfl rfl rfl rfl rfl
  | rwrite _ _ _ _ ht => subst ht; exact .of_eq rfl rfl rfl rfl rfl rfl rfl
  | pincfg _ ht => subst ht; exact .of_eq rfl rfl rfl rfl rfl rfl rfl
  | header _ _ _ ht => subst ht; exact .of_eq rfl rfl rfl rfl rfl rfl rfl
  | idchk _ hi ht => subst ht; exact ⟨.inl rfl, .inl ⟨rfl, rfl⟩, .inr ⟨.inl hi, rfl⟩, .inr rfl, .inl rfl⟩
  | rdtrim _ hi ht =>
    subst ht
    exact ⟨.inr ⟨.inl hi, 0, by simp⟩, .inl (by simp), .inl (by simp), .inr (State.complete_work _ _), .inl (by simp)⟩
  | beginOk _ hi ht =>
    rw [State.loaded_eq, State.withIdentity_finishBegin] at ht
    subst ht
    exact ⟨.inr ⟨.inr hi, 8, by simp⟩, .inl (by simp [State.idFrame]), .inr ⟨.inr hi, by simp⟩, .inr (by simp),
      .inl (by simp [State.idFrame])⟩
  | beginNo _ hi ht =>
    rw [State.checked_eq, State.withIdentity_finishBegin] at ht
    subst ht
    exact ⟨.inl (by simp [State.idFrame]), .inl (by simp [State.idFrame]), .inr ⟨.inr hi, by simp⟩, .inr (by simp),
      .inl (by simp [State.idFrame])⟩
  | rddata _ _ hi ht =>
    subst ht
    exact ⟨.inl (by simp [State.sampled8]), .inr ⟨hi, by simp [State.sampled8], by simp [State.sampled8]⟩,
      .inl (by simp [State.sampled8]), .inr (State.complete_work _ _), .inl (by simp [State.sampled8])⟩

namespace Stores

variable {i : Instr} {s t : State}

theorem trim_eq (h : Stores i s t) (hrdtrim : i ≠ .rdtrim) (hbegin : i ≠ .begin) : t.trim = s.trim :=
  h.trim.resolve_right fun ⟨hi, _⟩ => hi.elim hrdtrim hbegin

theorem samples_eq (h : Stores i s t) (hi : i ≠ .rddata) : t.stage = s.stage ∧ t.raw = s.raw :=
  h.samples.resolve_right fun ⟨hrddata, _⟩ => hi hrddata

theorem idKept (h : Stores i s t) (hidchk : i ≠ .idchk) (hbegin : i ≠ .begin) : IdKept s t :=
  h.identity.resolve_right fun ⟨hi, _⟩ => hi.elim hidchk hbegin

theorem trimKept (h : Stores i s t) (hrdtrim : i ≠ .rdtrim) (hbegin : i ≠ .begin) : TrimKept s t :=
  fun off => by rw [h.trim_eq hrdtrim hbegin]

theorem samplesKept (h : Stores i s t) (hi : i ≠ .rddata) : SamplesKept s t :=
  fun j => by rw [(h.samples_eq hi).1, (h.samples_eq hi).2]; exact ⟨rfl, rfl⟩

/-- `TRIM` has 32 offsets (20_memory R60), and none beyond is written. -/
theorem trim_read_of_le (h : Stores i s t) {off : Nat} (hoff : 32 ≤ off) :
    Memory.read t.trim off = Memory.read s.trim off := by
  obtain ht | ⟨-, j, ht⟩ := h.trim <;> rw [ht]
  rw [Memory.read_writeList_zero, List.getElem?_eq_none (by simpa using hoff), Option.none_or]

/-- `STAGE` and `RAW` have eight elements (20_memory R60), and none beyond is written. -/
theorem samples_read_of_le (h : Stores i s t) {j : Nat} (hj : 8 ≤ j) :
    Memory.read t.stage j = Memory.read s.stage j ∧ Memory.read t.raw j = Memory.read s.raw j := by
  obtain ⟨hstage, hraw⟩ | ⟨-, hstage, hraw⟩ := h.samples <;> rw [hstage, hraw]
  · exact ⟨rfl, rfl⟩
  · have hnone : s.sampleBytes[j]? = none := List.getElem?_eq_none (by simpa using hj)
    rw [Memory.read_writeList_zero, State.widened_read, hnone]
    exact ⟨rfl, rfl⟩

theorem fault_eq_or_unready (h : Stores i s t) (hi : i ≠ .rddata) : t.fault = s.fault ∨ s.pinsReady = false :=
  h.fault.imp_right fun hr => hr.unready.resolve_right fun ⟨hrddata, _⟩ => hi hrddata

end Stores

/-! ### What an operation adds to `EV` (20_memory R75, 40_transport R127) -/

/-- The list is `es` with lone bytes, whole frames and pin set-ups after it. -/
inductive BusLog (c : DeviceConfig) (es : List Event) : List Event → Prop where
  | same : BusLog c es es
  | bytes {fs : List Event} (h : BusLog c es fs) (xs : List (Byte × Byte)) :
      BusLog c es (fs ++ xs.flatMap (byteEvents c))
  | frame {fs : List Event} (h : BusLog c es fs) (xs : List (Byte × Byte)) : BusLog c es (fs ++ frameEvents c xs)
  | setup {fs : List Event} (h : BusLog c es fs) : BusLog c es (fs ++ setupEvents c)

theorem exec_busLog {i : Instr} {s t : State} (h : exec i s = .next t) : BusLog s.cfg s.ev t.ev := by
  cases exec_next h with
  | raised hr =>
    obtain ⟨r, w, rfl⟩ := hr.state
    exact .same
  | xfer8 _ _ _ ht => subst ht; exact .bytes .same _
  | header _ _ _ ht => subst ht; exact .bytes .same _
  | rread _ _ _ _ ht => subst ht; exact .frame .same _
  | rwrite _ _ _ _ ht => subst ht; exact .frame .same _
  | idchk _ _ ht => subst ht; exact .frame .same _
  | pincfg _ ht => subst ht; exact .setup .same
  | rdtrim _ _ ht =>
    subst ht
    rw [State.complete_ev, State.withTrim_ev, State.trimFrames_ev (s := s) 0 rfl fun i => by rw [Nat.zero_add]]
    exact .frame (.frame (.frame (.frame .same _) _) _) _
  | beginOk _ _ ht =>
    subst ht
    change BusLog s.cfg s.ev s.loaded.ev
    rw [State.loaded_ev]
    exact .frame (.frame (.frame (.frame (.frame (.frame (.frame (.frame (.setup .same) _) _) _) _) _) _) _) _
  | beginNo _ _ ht =>
    subst ht
    change BusLog s.cfg s.ev s.checked.ev
    rw [State.checked_ev]
    exact .frame (.setup .same) _
  | rddata _ _ _ ht =>
    subst ht
    rw [State.complete_ev, State.sampled8_ev, State.dataEvents, ← List.append_assoc, ← List.append_assoc]
    exact .frame (.frame (.frame .same _) _) _

theorem State.handOut_ev (o : Option Result) (s : State) : (s.handOut o).ev = s.ev := by
  cases o <;> rfl

theorem step_busLog {s t : State} (h : step s = .next t) : BusLog s.cfg s.ev t.ev := by
  obtain ⟨-, -, ⟨-, rfl⟩ | ⟨_, _, rest, -, -, he⟩ | ⟨_, _, _, -, -, rfl⟩ | ⟨_, _, -, hr⟩⟩ := step_next h
  · exact .same
  · exact exec_busLog (s := { s with pending := rest }) he
  · exact .same
  · obtain ⟨o, rfl⟩ := hostRead_next hr
    rw [State.handOut_ev]
    exact .same

/-! ### The bus between operations (40_transport R127, 41_frames R165) -/

/-- A list of events that leads from one position of the bus back to it. -/
theorem busScan_flatMap {α : Type} {c : DeviceConfig} {b : BusPos} {f : α → List Event}
    (h : ∀ x, busScan c b (f x) = some b) (xs : List α) : busScan c b (xs.flatMap f) = some b := by
  induction xs with
  | nil => rfl
  | cons x xs ih =>
    rw [List.flatMap_cons, busScan_append, h]
    exact ih

/-- A byte moves no chip-select: it stays outside every frame, in the software window, or in the bracket's frame. -/
theorem busScan_byteEvents {c : DeviceConfig} (hwf : c.wellFormed = true) {b : BusPos}
    (hb : c.transport = .hw → b = .idle ∨ b = .framing) (x : Byte × Byte) :
    busScan c b (byteEvents c x) = some b := by
  obtain ⟨hsck, hmosi⟩ := DeviceConfig.wellFormed_csPin_ne hwf
  cases htr : c.transport
  case hw => simp [byteEvents, htr, busScan, busNext, hb htr]
  case sw =>
    rw [byteEvents, htr]
    exact busScan_flatMap (fun i => by simp [bitEvents, busScan, busNext, hsck, hmosi]) _

/-- A frame opens its window or bracket, exchanges in it, and closes it. -/
theorem busScan_frameEvents {c : DeviceConfig} (hwf : c.wellFormed = true) (xs : List (Byte × Byte)) :
    busScan c .idle (frameEvents c xs) = some .idle := by
  have hbytes (b : BusPos) (hb : c.transport = .hw → b = .idle ∨ b = .framing) :=
    busScan_flatMap (busScan_byteEvents hwf hb) xs
  rw [frameEvents, busScan_append, busScan_append]
  cases htr : c.transport
  case hw =>
    have hopen : busScan c .idle (openEvents c) = some .framing := by
      simp [openEvents, htr, busScan, busNext, BusPos.chipSelect]
    rw [hopen, Option.bind_some, hbytes .framing (fun _ => .inr rfl), Option.bind_some]
    simp [closeEvents, htr, busScan, busNext, BusPos.chipSelect]
  case sw =>
    have hopen : busScan c .idle (openEvents c) = some .window := by
      simp [openEvents, htr, busScan, busNext, BusPos.chipSelect]
    rw [hopen, Option.bind_some, hbytes .window (by simp [htr]), Option.bind_some]
    simp [closeEvents, htr, busScan, busNext, BusPos.chipSelect]

theorem busScan_setupEvents (c : DeviceConfig) : busScan c .idle (setupEvents c) = some .idle := by
  cases htr : c.transport <;> simp [setupEvents, htr, busScan, busNext, BusPos.chipSelect]

theorem BusLog.busScan_eq {c : DeviceConfig} {es fs : List Event} (h : BusLog c es fs) (hwf : c.wellFormed = true)
    (hes : busScan c .idle es = some .idle) : busScan c .idle fs = some .idle := by
  induction h with
  | same => exact hes
  | bytes _ xs ih =>
    rw [busScan_append, ih]
    exact busScan_flatMap (busScan_byteEvents hwf fun _ => .inl rfl) xs
  | frame _ xs ih =>
    rw [busScan_append, ih]
    exact busScan_frameEvents hwf xs
  | setup _ ih =>
    rw [busScan_append, ih]
    exact busScan_setupEvents c

/-! ### Each part of the invariant is kept -/

theorem exec_keeps_eventsOk {i : Instr} {s t : State} (hwf : s.cfg.wellFormed = true) (h : exec i s = .next t)
    (hs : EventsOk s) : EventsOk t := by
  obtain ⟨hcfg, es, hev, hown⟩ := exec_appendsOwnEvents h
  refine ⟨?order, ?own⟩
  case order =>
    rw [hcfg]
    exact (exec_busLog h).busScan_eq hwf hs.order
  case own =>
    rw [hcfg, hev, ownEvents_append]
    exact ⟨hs.own, hown⟩

theorem LinesOk.configured {s : State} (h : LinesOk s) : LinesOk s.configured := by
  cases htr : s.transport
  case sw =>
    rw [State.configured_sw htr]
    exact ⟨fun _ => rfl, h.sckHigh, h.noBracket, h.swNoHw, fun hhw => absurd (htr.symm.trans hhw) (by decide)⟩
  case hw =>
    rw [State.configured_hw htr]
    exact ⟨fun _ => rfl, h.sckHigh, h.noBracket, fun hsw => absurd (htr.symm.trans hsw) (by decide), h.hwOnlyCs⟩

theorem LinesOk.of_busKeeps {s t : State} (hk : BusKeeps s t) (h : LinesOk s) : LinesOk t where
  csHigh hdir := hk.latCs.elim (fun hlat => hlat.trans (h.csHigh ((hk.dirs .cs).symm.trans hdir))) id
  sckHigh := hk.latSck.elim (fun hlat => h.sckHigh.imp hlat.trans hlat.trans) .inr
  noBracket := hk.hwInTxn.elim (fun htxn => htxn.trans h.noBracket) And.right
  swNoHw hsw := hk.hwStarted.trans (h.swNoHw (hk.transport_eq.symm.trans hsw))
  hwOnlyCs hhw := by
    have hhw' := hk.transport_eq.symm.trans hhw
    obtain ⟨hlatSck, hlatMosi⟩ := hk.hwLatches hhw'
    obtain ⟨hsck, hmosi, hdirSck, hdirMosi, hdirMiso⟩ := h.hwOnlyCs hhw'
    exact ⟨hlatSck.trans hsck, hlatMosi.trans hmosi, (hk.dirs .sck).trans hdirSck, (hk.dirs .mosi).trans hdirMosi,
      (hk.dirs .miso).trans hdirMiso⟩

theorem exec_keeps_linesOk {i : Instr} {s t : State} (h : exec i s = .next t) (hs : LinesOk s) : LinesOk t := by
  obtain ⟨hk, -⟩ | ⟨hk, -⟩ := exec_busKeeps h
  · exact hs.of_busKeeps hk
  · exact hs.configured.of_busKeeps hk

theorem Memory.below_writeList_zero {α : Type} {n : Nat} {m : Memory α} {l : List α} (hm : Memory.below n m)
    (hl : l.length ≤ n) : Memory.below n (Memory.writeList m 0 l) := by
  intro e he
  obtain ⟨-, hlt, -⟩ | he := Memory.mem_writeList l he
  · omega
  · exact hm e he

/-- The widening loop starts from the slots as they were. -/
theorem State.widened_ok {s : State} (h : BuffersOk s) : Memory.wf s.widened ∧
    Memory.below Config.rawSlots s.widened ∧ ∀ e ∈ s.widened, e.2.toNat ≤ 255 :=
  have hraw : (s.dataFrames.withStage (Memory.writeList s.stage 0 s.sampleBytes)).raw = s.raw := rfl
  State.widenFold_raw _ (fun _ => List.mem_range.1) _ (hraw ▸ h.rawWf) (hraw ▸ h.rawSize) (hraw ▸ h.rawByte)

theorem exec_keeps_buffersOk {i : Instr} {s t : State} (h : exec i s = .next t) (hs : BuffersOk s) : BuffersOk t := by
  have hstores := exec_stores h
  have htrim : Memory.wf t.trim ∧ Memory.below Config.trimLen t.trim := by
    obtain ht | ⟨-, j, ht⟩ := hstores.trim <;> rw [ht]
    · exact ⟨hs.trimWf, hs.trimSize⟩
    · exact ⟨Memory.wf_writeList _ hs.trimWf 0, Memory.below_writeList_zero hs.trimSize (State.trimBytes_length s j).le⟩
  have hstage : Memory.wf t.stage ∧ Memory.below Config.rawSlots t.stage := by
    obtain ⟨ht, -⟩ | ⟨-, ht, -⟩ := hstores.samples <;> rw [ht]
    · exact ⟨hs.stageWf, hs.stageSize⟩
    · exact ⟨Memory.wf_writeList _ hs.stageWf 0, Memory.below_writeList_zero hs.stageSize s.sampleBytes_length.le⟩
  have hraw : Memory.wf t.raw ∧ Memory.below Config.rawSlots t.raw ∧ ∀ e ∈ t.raw, e.2.toNat ≤ 255 := by
    obtain ⟨-, ht⟩ | ⟨-, -, ht⟩ := hstores.samples <;> rw [ht]
    · exact ⟨hs.rawWf, hs.rawSize, hs.rawByte⟩
    · exact State.widened_ok hs
  exact ⟨htrim.1, hstage.1, hraw.1, htrim.2, hstage.2, hraw.2.1, hraw.2.2⟩

theorem Memory.read_writeList_zero_isSome {α : Type} (m : Memory α) {l : List α} {a : Nat} (h : a < l.length) :
    (Memory.read (Memory.writeList m 0 l) a).isSome := by
  rw [Memory.read_writeList_zero, List.getElem?_eq_getElem h]
  rfl

/-- A byte of `TRIM` that holds a value keeps holding one. -/
theorem Stores.trim_isSome {i : Instr} {s t : State} (h : Stores i s t) {off : Nat} (hoff : off < Config.trimLen)
    (hs : (Memory.read s.trim off).isSome) : (Memory.read t.trim off).isSome := by
  obtain ht | ⟨-, j, ht⟩ := h.trim <;> rw [ht]
  · exact hs
  · exact Memory.read_writeList_zero_isSome _ (by rwa [State.trimBytes_length])

theorem Stores.chipId_isSome {i : Instr} {s t : State} (h : Stores i s t) (hs : s.chipId.isSome) : t.chipId.isSome := by
  obtain ⟨ht, -⟩ | ⟨-, ht⟩ := h.identity
  · rwa [ht]
  · exact ht

/-- BEGIN ends READY only after its trim frames (43_identity R206, R210). -/
theorem exec_begin_readyOk {s t : State} (h : exec .begin s = .next t) (hphase : t.phase = .ready) : ReadyOk t := by
  have hpins : t.pinsReady = true := by
    obtain ⟨-, -, hne⟩ | ⟨hk, -⟩ := exec_busKeeps h
    · exact absurd rfl hne
    · rw [hk.pinsReady_eq, State.configured_pinsReady]
  cases hid : idMatches (s.answerByte 1)
  case false =>
    obtain rfl := Host.Outcome.next.inj ((exec_begin_mismatch hid).symm.trans h)
    simp at hphase
  case true =>
    obtain rfl := Host.Outcome.next.inj ((exec_begin_match hid).symm.trans h)
    refine ⟨hpins, fun off hoff => ?trim, ?id⟩
    case trim =>
      rw [State.finishBegin_trim, State.loaded_trim]
      exact Memory.read_writeList_zero_isSome _ (by rwa [State.trimBytes_length])
    case id =>
      rw [State.loaded_eq, State.withIdentity_finishBegin]
      rfl

theorem exec_keeps_readyOk {i : Instr} {s t : State} (h : exec i s = .next t) (hs : s.phase = .ready → ReadyOk s)
    (hphase : t.phase = .ready) : ReadyOk t := by
  by_cases hi : i = .begin
  case pos =>
    subst hi
    exact exec_begin_readyOk h hphase
  case neg =>
    have hstores := exec_stores h
    obtain ⟨hpins, htrim, hid⟩ := hs ((exec_phase_of_ne_begin hi h).symm.trans hphase)
    exact ⟨exec_pinsReady h hpins, fun off hoff => hstores.trim_isSome hoff (htrim off hoff), hstores.chipId_isSome hid⟩

/-! ### The invariant is kept (20_memory section 4) -/

theorem exec_keeps_inv {i : Instr} {s t : State} (hwf : s.cfg.wellFormed = true) (h : exec i s = .next t)
    (hs : Inv s) : Inv t where
  config := .inl (by rwa [(exec_appendsOwnEvents h).cfg])
  buffers := exec_keeps_buffersOk h hs.buffers
  lines := exec_keeps_linesOk h hs.lines
  ready := exec_keeps_readyOk h hs.ready
  events := exec_keeps_eventsOk hwf h hs.events
  work := (exec_stores h).work.elim (fun hwork => hwork.trans hs.work) id

/-- The queue, the results and the reason of a stop play no part in the invariant. -/
theorem Inv.of_eq_but_stop {s t : State} (hwf : s.cfg.wellFormed = true) (hs : Inv s)
    (ht : t = { s with pending := t.pending, results := t.results, fault := t.fault, refused := t.refused }) :
    Inv t := by
  obtain ⟨-, ⟨htrimWf, hstageWf, hrawWf, htrimSize, hstageSize, hrawSize, hrawByte⟩,
    ⟨hcsHigh, hsckHigh, hnoBracket, hswNoHw, hhwOnlyCs⟩, hready, ⟨horder, hown⟩, hwork⟩ := hs
  rw [ht]
  exact ⟨.inl hwf, ⟨htrimWf, hstageWf, hrawWf, htrimSize, hstageSize, hrawSize, hrawByte⟩,
    ⟨hcsHigh, hsckHigh, hnoBracket, hswNoHw, hhwOnlyCs⟩,
    fun hphase => ⟨(hready hphase).pins, (hready hphase).trim, (hready hphase).id⟩, ⟨horder, hown⟩, hwork⟩

theorem State.handOut_eq (o : Option Result) (s : State) :
    s.handOut o = { s with results := (s.handOut o).results, fault := (s.handOut o).fault } := by
  cases o <;> rfl

theorem step_keeps_inv {s t : State} (hs : Inv s) (h : step s = .next t) : Inv t := by
  obtain ⟨hrefused, -, hstep⟩ := step_next h
  have hwf : s.cfg.wellFormed = true := hs.config.resolve_right (by simp [hrefused])
  obtain ⟨-, rfl⟩ | ⟨_, _, rest, -, -, he⟩ | ⟨_, _, _, -, -, rfl⟩ | ⟨_, rest, -, hr⟩ := hstep
  · exact hs
  · exact exec_keeps_inv (s := { s with pending := rest }) hwf he (hs.of_eq_but_stop hwf rfl)
  · exact hs.of_eq_but_stop hwf rfl
  · obtain ⟨o, rfl⟩ := hostRead_next hr
    refine hs.of_eq_but_stop hwf ?_
    rw [State.handOut_eq]

/-- Settles O57: the parts of the invariant one by one, each over what an operation can do to the lines, the buffers and
`EV`. -/
theorem stepKeepsInv : Obligations.StepKeepsInv :=
  fun _ _ => step_keeps_inv

end Sys2Proof.Machine

/-! What the statements on steps, reads from outside, statuses and frame conditions need: the rules of `fetch` by case, and
from what operations keep and store, what each leaves alone. -/

namespace Sys2Proof.Machine

/-! ### The statements of 70_reset_and_hazards and 60_exceptions on a step -/

theorem Memory.below_nil {α : Type} (n : Nat) : Memory.below n ([] : Memory α) :=
  fun _ h => absurd h List.not_mem_nil

theorem State.construct_inv (c : DeviceConfig) : Inv (State.construct c) where
  config := by
    rw [State.construct_refused]
    cases h : c.wellFormed
    case false => exact .inr (if_neg (by decide))
    case true => exact .inl h
  buffers := ⟨State.construct_trim_wf c, State.construct_stage_wf c, State.construct_raw_wf c, Memory.below_nil _,
    Memory.below_nil _, Memory.below_nil _, fun _ h => absurd h List.not_mem_nil⟩
  lines := ⟨fun h => PinDir.noConfusion h, .inl rfl, rfl, fun _ => rfl, fun _ => ⟨rfl, rfl, rfl, rfl, rfl⟩⟩
  ready := fun h => Phase.noConfusion h
  events := ⟨rfl, ownEvents_nil c⟩
  work := rfl

/-- Settles O56: every buffer and `EV` are empty, no pin is an output and the phase is not READY. -/
theorem invAtConstruction : Obligations.InvAtConstruction :=
  State.construct_inv

/-- Settles O2: the arguments of the reset configuration, read back; it is well-formed and has a data-out pin. -/
theorem resetInstance : Obligations.ResetInstance :=
  ⟨rfl, ⟨rfl, rfl⟩, rfl⟩

theorem step_of_decode_ok {s : State} {c : Code} {i : Instr} {rest : List HostInput} (hlive : s.live)
    (hpending : s.pending = .code c :: rest) (hdecode : decode c = .ok i) :
    step s = exec i { s with pending := rest } := by
  obtain ⟨hrefused, hfault⟩ := hlive
  simp only [step, fetch, hrefused, hfault, hpending, hdecode]

theorem step_of_pending_nil {s : State} (hlive : s.live) (hpending : s.pending = []) : step s = .next s := by
  obtain ⟨hrefused, hfault⟩ := hlive
  simp only [step, fetch, hrefused, hfault, hpending]

theorem step_of_fault {s : State} {f : FaultRecord} (hrefused : s.refused = none) (hfault : s.fault = some f) :
    step s = .fault (.quiescent f) := by
  simp only [step, fetch, hrefused, hfault]

/-- Settles O14: `fetch` takes the code off the queue and hands its instruction to `exec`. -/
theorem stepRunsTheDecodedInstruction : Obligations.StepRunsTheDecodedInstruction :=
  fun _ _ _ _ => step_of_decode_ok

/-- Settles O15: `fetch` finds the queue empty. -/
theorem stepWaitsForTheHost : Obligations.StepWaitsForTheHost :=
  fun _ => step_of_pending_nil

/-- An operation that changes `FAULT` changes nothing else. -/
theorem exec_eq_of_fault_ne {i : Instr} {s t : State} (h : exec i s = .next t) (hne : t.fault ≠ s.fault) :
    t = { s with fault := t.fault } := by
  obtain ⟨r, w, rfl⟩ := ((exec_stores h).fault.resolve_left hne).state
  rfl

theorem State.handOut_eq_of_fault_ne {o : Option Result} {s : State} (hne : (s.handOut o).fault ≠ s.fault) :
    s.handOut o = { s with fault := (s.handOut o).fault } := by
  cases o with
  | some r => exact absurd rfl hne
  | none => rfl

theorem step_eq_of_fault_ne {s t : State} (h : step s = .next t) (hne : t.fault ≠ s.fault) :
    t = { s with pending := s.pending.tail, fault := t.fault } := by
  obtain ⟨-, -, ⟨-, rfl⟩ | ⟨_, _, rest, hpending, -, he⟩ | ⟨_, _, _, -, -, rfl⟩ | ⟨_, rest, hpending, hr⟩⟩ := step_next h
  · exact absurd rfl hne
  · have ht := exec_eq_of_fault_ne he hne
    rwa [hpending]
  · exact absurd rfl hne
  · obtain ⟨o, rfl⟩ := hostRead_next hr
    have ht := State.handOut_eq_of_fault_ne hne
    rwa [hpending]

/-- Settles O16: a fault is raised before an operation does anything else, and `fetch` stops at it. -/
theorem faultsArePreciseAndFinal : Obligations.FaultsArePreciseAndFinal :=
  ⟨fun _ _ => step_eq_of_fault_ne, fun _ _ => step_of_fault⟩

/-! ### Reads from outside (20_memory R63, 10_state R39) -/

theorem Memory.readList_eq_none {α : Type} {m : Memory α} {n off k : Nat} (hk : k < n)
    (hread : Memory.read m (off + k) = none) : Memory.readList m off n = none := by
  rw [Option.eq_none_iff_forall_ne_some]
  intro l hl
  obtain ⟨hlen, hall⟩ := (Memory.readList_eq_some m n off l).1 hl
  rw [hall k hk, List.getElem?_eq_none_iff] at hread
  omega

theorem hostRead_trim {off n : Nat} (hn : 1 ≤ n) (hoff : off + n ≤ 32) (s : State) :
    hostRead (.trim off n) s = .next (s.handOut ((Memory.readList s.trim off n).map .bytes)) :=
  if_pos ⟨hn, hoff⟩

theorem hostRead_raw {j : Nat} (hj : j < 8) (s : State) :
    hostRead (.raw j) s = .next (s.handOut ((Memory.read s.raw j).map .slot)) :=
  if_pos hj

theorem hostRead_raw_undef {s : State} {j : Nat} (hj : j < 8) (hread : Memory.read s.raw j = none) :
    hostRead (.raw j) s = .next (s.raise .undefRead none) := by
  rw [hostRead_raw hj, hread]
  rfl

/-- Settles O47: a read of stored elements hands them out in order, and a read over one that is UNDEF finds no value. -/
theorem outsideReads : Obligations.OutsideReads := by
  refine fun s => ⟨fun off n hn hoff => ⟨fun l hlen hall => ?stored, fun k hk hread => ?undef⟩,
    fun j hj => ⟨fun v hread => ?slot, fun hread => ⟨_, rfl, hostRead_raw_undef hj hread⟩⟩⟩
  case stored =>
    rw [hostRead_trim hn hoff, (Memory.readList_eq_some s.trim n off l).2 ⟨hlen, hall⟩]
    rfl
  case undef =>
    refine ⟨⟨.undefRead, none⟩, rfl, ?_⟩
    rw [hostRead_trim hn hoff, Memory.readList_eq_none hk hread]
    rfl
  case slot =>
    rw [hostRead_raw hj, hread]
    rfl

/-! ### Codes and statuses (60_exceptions R241, R242) -/

theorem idStatus_toBool (b : Bool) : (idStatus b).toBool = b := by
  cases b <;> rfl

/-- The four regions always give 32 bytes, so RDTRIM's error is never reached (42_calibration R182). -/
theorem trimOk_trimBytes (s : State) (j : Nat) : trimOk (s.trimBytes j).length = true := by
  rw [State.trimBytes_length]
  rfl

theorem beginStatus_trimBytes (b : Bool) (s : State) (j : Nat) :
    beginStatus b (trimOk (s.trimBytes j).length) = idStatus b := by
  rw [trimOk_trimBytes]
  rfl

theorem idStatus_eq_none_iff {b : Bool} : idStatus b = .none ↔ b = true := by
  cases b <;> simp [idStatus]

theorem idStatus_eq_identityMismatch_iff {b : Bool} : idStatus b = .identityMismatch ↔ b = false := by
  cases b <;> simp [idStatus]

/-- BEGIN's phase and result are those of its identity check, for its trim check never fails. -/
theorem exec_begin_phase_results (s : State) : ∃ t, exec .begin s = .next t ∧
    t.results = s.results ++ [.bool (idMatches (s.answerByte 1))] ∧
    t.phase = if idMatches (s.answerByte 1) then .ready else .unusable := by
  cases hid : idMatches (s.answerByte 1)
  case false => exact ⟨_, exec_begin_mismatch hid, by simp, by simp⟩
  case true => exact ⟨_, exec_begin_match hid, by simp, by simp⟩

/-- Settles O19: each result is the boolean its closed form hands out, with the trim check always passed; the fault codes are
those of the closed forms' faults. -/
theorem errorAndFaultCodes : Obligations.ErrorAndFaultCodes := by
  refine ⟨fun st => by cases st <;> simp [Status.toBool], rfl, rfl, rfl,
    fun s hready => ⟨⟨_, exec_idchk_ready hready, ?idchk⟩, ⟨_, exec_rdtrim_ready hready, ?rdtrim⟩, ?trimStatus,
      fun hphase => ⟨_, exec_rddata_ready hphase hready, ?rddata⟩⟩,
    fun s => ?begin, fun s hunready i hi => ⟨_, _, exec_unready hunready hi, rfl, rfl⟩,
    fun s hphase => ⟨_, _, exec_rddata_notReady hphase, rfl, rfl⟩,
    fun s j hj hread => ⟨_, _, hostRead_raw_undef hj hread, rfl, rfl⟩⟩
  case idchk =>
    rw [idStatus_toBool]
    rfl
  case rdtrim =>
    rw [trimOk_trimBytes, State.complete_results, State.withTrim_results, State.trimFrames_results]
    rfl
  case trimStatus =>
    rw [trimOk_trimBytes]
    rfl
  case rddata =>
    rw [State.complete_results, State.sampled8, State.dataFrames_results]
    rfl
  case begin =>
    obtain ⟨t, ht, hresults, hphase⟩ := exec_begin_phase_results s
    refine ⟨t, idStatus (idMatches (s.answerByte 1)), ht, (beginStatus_trimBytes _ s 8).symm, ?_, ?_,
      idStatus_eq_identityMismatch_iff⟩
    · rw [hresults, idStatus_toBool]
    · rw [hphase, ne_eq, idStatus_eq_none_iff]
      cases idMatches (s.answerByte 1) <;> simp

/-! ### Frame conditions of the operations (20_memory section 3, 10_state R38) -/

theorem State.configured_lat_sck_mosi (s : State) :
    s.configured.lat .sck = s.lat .sck ∧ s.configured.lat .mosi = s.lat .mosi := by
  cases h : s.transport <;> simp [State.configured, State.lat, h]

/-- A byte sent alone leaves chip-select's latch and the bracket alone (40_transport R125); so does the fault of unready
pins. -/
theorem exec_byte_cs_bracket {i : Instr} {s t : State}
    (hi : (∃ tx, i = .xfer8 tx) ∨ (∃ a, i = .frameRdHdr a) ∨ (∃ a, i = .frameWrHdr a)) (h : exec i s = .next t) :
    t.lat .cs = s.lat .cs ∧ t.hwInTxn = s.hwInTxn := by
  obtain ⟨tx, rfl⟩ | ⟨a, rfl⟩ | ⟨a, rfl⟩ := hi
  · cases hready : s.pinsReady
    case false =>
      obtain rfl := Host.Outcome.next.inj ((exec_xfer8_unready tx hready).symm.trans h)
      exact ⟨rfl, rfl⟩
    case true =>
      obtain rfl := Host.Outcome.next.inj ((exec_xfer8_ready tx hready).symm.trans h)
      exact ⟨s.sent_lat_cs _, rfl⟩
  · obtain rfl := Host.Outcome.next.inj ((exec_frameRdHdr_eq s a).symm.trans h)
    exact ⟨s.sent_lat_cs _, rfl⟩
  · obtain rfl := Host.Outcome.next.inj ((exec_frameWrHdr_eq s a).symm.trans h)
    exact ⟨s.sent_lat_cs _, rfl⟩

/-- Settles O48: a lone byte and PINCFG store nothing; the one keeps what frames keep and chip-select too, the other is its
pin set-up. -/
theorem frameOfPinOperations : Obligations.FrameOfPinOperations := by
  intro i s t hi h
  have hstores := exec_stores h
  have hne : i ≠ .idchk ∧ i ≠ .rdtrim ∧ i ≠ .begin ∧ i ≠ .rddata := by
    obtain ⟨_, rfl⟩ | ⟨_, rfl⟩ | ⟨_, rfl⟩ | rfl := hi <;> simp
  obtain ⟨hidchk, hrdtrim, hbegin, hrddata⟩ := hne
  refine ⟨hstores.trimKept hrdtrim hbegin, hstores.samplesKept hrddata, hstores.idKept hidchk hbegin,
    exec_phase_of_ne_begin hbegin h, (exec_appendsOwnEvents h).cfg, ?_⟩
  by_cases hpincfg : i = .pincfg
  case pos =>
    subst hpincfg
    obtain rfl := Host.Outcome.next.inj ((exec_pincfg_eq s).symm.trans h)
    obtain ⟨hsck, hmosi⟩ := s.configured_lat_sck_mosi
    exact ⟨rfl, rfl, rfl, fun hp => absurd rfl hp, fun _ => ⟨hsck, hmosi, rfl⟩, .inl rfl⟩
  case neg =>
    have hk := exec_busKeeps_of_ne hpincfg hbegin h
    have hbyte : (∃ tx, i = .xfer8 tx) ∨ (∃ a, i = .frameRdHdr a) ∨ (∃ a, i = .frameWrHdr a) := by
      simpa [hpincfg] using hi
    obtain ⟨hcs, htxn⟩ := exec_byte_cs_bracket hbyte h
    exact ⟨hk.refused, hk.pending, htxn, fun _ => ⟨hcs, hk.dirs, hk.hwStarted⟩, fun hp => absurd hp hpincfg,
      hstores.fault_eq_or_unready hrddata⟩

/-- Settles O49: the three are frames, and of them IDCHK alone stores, to the identity. -/
theorem frameOfRegisterFrames : Obligations.FrameOfRegisterFrames := by
  intro i s t hi h
  have hstores := exec_stores h
  have hne : i ≠ .pincfg ∧ i ≠ .rdtrim ∧ i ≠ .begin ∧ i ≠ .rddata := by
    obtain ⟨_, _, rfl⟩ | ⟨_, _, rfl⟩ | rfl := hi <;> simp
  obtain ⟨hpincfg, hrdtrim, hbegin, hrddata⟩ := hne
  exact ⟨hstores.trimKept hrdtrim hbegin, hstores.samplesKept hrddata, exec_phase_of_ne_begin hbegin h,
    (exec_busKeeps_of_ne hpincfg hbegin h).toFrameKeepsButFault, fun hidchk => hstores.idKept hidchk hbegin,
    hstores.fault_eq_or_unready hrddata⟩

/-- Settles O50: RDTRIM is frames, and stores 32 bytes to `TRIM` from offset 0. -/
theorem frameOfRdtrim : Obligations.FrameOfRdtrim := by
  intro s t h
  have hstores := exec_stores h
  exact ⟨fun _ => hstores.trim_read_of_le, hstores.samplesKept (by simp), hstores.idKept (by simp) (by simp),
    exec_phase_of_ne_begin (by simp) h, (exec_busKeeps_of_ne (by simp) (by simp) h).toFrameKeepsButFault,
    hstores.fault_eq_or_unready (by simp)⟩

/-- BEGIN reaches its trim frames only with an accepted ID (43_identity R208). -/
theorem exec_begin_trimKept {s t : State} (h : exec .begin s = .next t) (hidOk : t.idOk = false) : TrimKept s t := by
  cases hid : idMatches (s.answerByte 1)
  case false =>
    obtain rfl := Host.Outcome.next.inj ((exec_begin_mismatch hid).symm.trans h)
    exact fun _ => rfl
  case true =>
    obtain rfl := Host.Outcome.next.inj ((exec_begin_match hid).symm.trans h)
    rw [State.loaded_eq, State.withIdentity_finishBegin] at hidOk
    exact absurd (hid.symm.trans hidOk) (by decide)

/-- Settles O51: BEGIN is a pin set-up and frames, raises no fault, and stores to `TRIM` and the identity. -/
theorem frameOfBegin : Obligations.FrameOfBegin := by
  intro s t h
  have hstores := exec_stores h
  obtain ⟨-, -, hne⟩ | ⟨hk, -⟩ := exec_busKeeps h
  · exact absurd rfl hne
  · exact ⟨fun _ => hstores.trim_read_of_le, exec_begin_trimKept h, hstores.samplesKept (by simp), hk.cfg,
      hstores.fault.resolve_right fun hr => hr.notBegin rfl, hk.refused, hk.pending⟩

/-- Settles O52: RDDATA is frames, and stores eight bytes to `STAGE` and `RAW` from offset 0. -/
theorem frameOfRddata : Obligations.FrameOfRddata := by
  intro s t h
  have hstores := exec_stores h
  refine ⟨fun _ => hstores.samples_read_of_le, hstores.trimKept (by simp) (by simp), hstores.idKept (by simp) (by simp),
    exec_phase_of_ne_begin (by simp) h, (exec_busKeeps_of_ne (by simp) (by simp) h).toFrameKeepsButFault,
    hstores.fault.imp_right fun hr => ?_⟩
  exact hr.unready.symm.imp_left And.right

/-! ### Access rights (10_state R38) -/

/-- The peripheral's start is written by the pin set-up alone, in hardware alone, and only to 1 (10_state R29). -/
theorem exec_hwStarted_of_ne {i : Instr} {s t : State} (h : exec i s = .next t) (hne : t.hwStarted ≠ s.hwStarted) :
    (i = .pincfg ∨ i = .begin) ∧ s.transport = .hw ∧ t.hwStarted = true := by
  obtain ⟨hk, -⟩ | ⟨hk, hi⟩ := exec_busKeeps h
  · exact absurd hk.hwStarted hne
  · rw [hk.hwStarted] at hne ⊢
    cases htr : s.transport
    case sw => exact absurd (by rw [State.configured_sw htr]) hne
    case hw => exact ⟨hi, rfl, by rw [State.configured_hw htr]⟩

theorem exec_hwInTxn {i : Instr} {s t : State} (h : exec i s = .next t) :
    t.hwInTxn = s.hwInTxn ∨ (s.transport = .hw ∧ t.hwInTxn = false) := by
  obtain ⟨hk, -⟩ | ⟨hk, -⟩ := exec_busKeeps h
  · exact hk.hwInTxn
  · exact hk.hwInTxn

/-- The clock and data latches move in software alone, and not by the pin set-up. -/
theorem exec_lat_sck_mosi {i : Instr} {s t : State} (h : exec i s = .next t) (hi : s.transport = .hw ∨ i = .pincfg) :
    t.lat .sck = s.lat .sck ∧ t.lat .mosi = s.lat .mosi := by
  obtain ⟨hsck, hmosi⟩ := s.configured_lat_sck_mosi
  obtain hhw | rfl := hi
  · obtain ⟨hk, -⟩ | ⟨hk, -⟩ := exec_busKeeps h
    · exact hk.hwLatches hhw
    · rw [← hsck, ← hmosi]
      exact hk.hwLatches hhw
  · obtain rfl := Host.Outcome.next.inj ((exec_pincfg_eq s).symm.trans h)
    exact ⟨hsck, hmosi⟩

/-- Settles O53: the lines as frames and the pin set-up leave them, the rest as each operation stores it. -/
theorem accessRights : Obligations.AccessRights := by
  intro i s t h
  have hstores := exec_stores h
  refine ⟨(exec_appendsOwnEvents h).cfg, fun hne => ?dirs, exec_hwStarted_of_ne h, (exec_hwInTxn h).resolve_left,
    fun hne => ?identity, fun hne => (hstores.trim.resolve_left hne).1, fun hne => ?samples, fun hne => ?latches⟩
  case dirs =>
    obtain ⟨hk, -⟩ | ⟨-, hi⟩ := exec_busKeeps h
    · exact absurd hk.dirs hne
    · exact hi
  case identity => exact (hstores.identity.resolve_left (by tauto)).1
  case samples => exact (hstores.samples.resolve_left (by tauto)).1
  case latches =>
    have hnot : ¬ (s.transport = .hw ∨ i = .pincfg) := fun hi => by
      obtain ⟨hsck, hmosi⟩ := exec_lat_sck_mosi h hi
      exact hne.elim (· hsck) (· hmosi)
    obtain ⟨hhw, hpincfg⟩ := not_or.1 hnot
    refine ⟨?_, hpincfg⟩
    cases htr : s.transport
    case sw => rfl
    case hw => exact absurd htr hhw

end Sys2Proof.Machine

/-! What the statements on frames read back from `EV` need: what each reader of `EV` finds in the events of a byte and of a
frame, how many events each operation has, and what plays no part in an operation: bit 7 of an address, the working registers,
the answers that a frame drops. -/

namespace Sys2Proof

/-- In software the data-out pin is neither the clock nor chip-select (10_state R23). -/
theorem DeviceConfig.wellFormed_mosiPin_ne {c : DeviceConfig} (h : c.wellFormed = true) (hsw : c.transport = .sw) :
    c.csPin ≠ c.mosiPin ∧ c.sckPin ≠ c.mosiPin := by
  obtain ⟨-, hmosi, -, -⟩ | ⟨-, -, -, -, hdistinct⟩ := c.wellFormed_iff.1 h
  · simp [DeviceConfig.transport, hmosi] at hsw
  · obtain ⟨hcs, hrest⟩ := List.pairwise_cons.1 hdistinct
    obtain ⟨hsck, -⟩ := List.pairwise_cons.1 hrest
    exact ⟨hcs _ (by simp), hsck _ (by simp)⟩

end Sys2Proof

namespace Sys2Proof.Machine

/-! ### Lone headers and latches (30_encoding R91, 10_state R28) -/

/-- Settles O25: the closed form of the header step. -/
theorem headerStepsSendTheHeader : Obligations.HeaderStepsSendTheHeader :=
  fun s a => ⟨exec_frameRdHdr_eq s a, exec_frameWrHdr_eq s a⟩

theorem State.sent_singleton_lat_sck_mosi_sw {s : State} (h : s.transport = .sw) (tx : Byte) :
    (s.sent [tx]).lat .sck = some true ∧ (s.sent [tx]).lat .mosi = some (tx.getLsbD 0) := by
  rw [State.sent_singleton_sw h]
  exact ⟨rfl, rfl⟩

theorem State.openFrame_lat_sck_mosi (s : State) :
    s.openFrame.lat .sck = s.lat .sck ∧ s.openFrame.lat .mosi = s.lat .mosi := by
  unfold State.openFrame
  cases s.transport <;> exact ⟨rfl, rfl⟩

/-- Settles O26: the latches of the closed forms, by the last byte sent. -/
theorem sckStaysHighAfterAByte : Obligations.SckStaysHighAfterAByte := by
  refine fun s hsw hready => ⟨fun tx => ⟨_, exec_xfer8_ready tx hready, State.sent_singleton_lat_sck_mosi_sw hsw tx⟩,
    fun addr n => ⟨_, exec_rread_ready addr n hready, ?_⟩,
    fun addr d => ⟨_, exec_rwrite_ready addr d hready, State.framed_lat_sck_mosi_sw (ts := writeBytes addr d) hsw rfl⟩,
    ⟨_, exec_pincfg_eq s, s.configured_lat_sck_mosi⟩, s.openFrame_lat_sck_mosi⟩
  rw [← readBytes_last_getLsbD_zero]
  exact State.framed_lat_sck_mosi_sw hsw (readBytes_getLast? addr n)

/-! ### Readers of `EV` over joined lists (41_frames R152) -/

/-- A reader that reads joined lists one after the other reads a concatenation member by member. -/
theorem reader_flatMap {α β : Type} {read : List Event → List β} (hnil : read [] = [])
    (happend : ∀ es fs, read (es ++ fs) = read es ++ read fs) (f : α → List Event) (xs : List α) :
    read (xs.flatMap f) = xs.flatMap fun x => read (f x) := by
  induction xs with
  | nil => exact hnil
  | cons x xs ih => rw [List.flatMap_cons, List.flatMap_cons, happend, ih]

theorem drivenBits_append (c : DeviceConfig) (es fs : List Event) :
    drivenBits c (es ++ fs) = drivenBits c es ++ drivenBits c fs := by
  induction es with
  | nil => rfl
  | cons e es ih =>
    cases e
    case drive p v => by_cases hp : p = c.mosiPin <;> simp [drivenBits, hp, ih]
    all_goals exact ih

theorem sampledBits_append (c : DeviceConfig) (es fs : List Event) :
    sampledBits c (es ++ fs) = sampledBits c es ++ sampledBits c fs := by
  induction es with
  | nil => rfl
  | cons e es ih =>
    cases e
    case sample p v => by_cases hp : p = c.misoPin <;> simp [sampledBits, hp, ih]
    all_goals exact ih

theorem hwExchanges_append (es fs : List Event) : hwExchanges (es ++ fs) = hwExchanges es ++ hwExchanges fs := by
  induction es with
  | nil => rfl
  | cons e es ih =>
    cases e
    case hwXfer tx rx => exact congrArg ((tx, rx) :: ·) ih
    all_goals exact ih

/-! ### Bytes as bits (20_memory R67) -/

/-- The bits of a byte in the order they go over the wire, most significant first. -/
def msbBits (b : Byte) : List Bool := [7, 6, 5, 4, 3, 2, 1, 0].map b.getLsbD

theorem packMsb_msbBits : ∀ b : Byte, packMsb (fun i => (msbBits b).getD i false) = b := by
  decide

theorem groupBytes_msbBits_append (b : Byte) (rest : List Bool) :
    groupBytes (msbBits b ++ rest) = b :: groupBytes rest :=
  congrArg (· :: groupBytes rest) (packMsb_msbBits b)

theorem groupBytes_flatMap_msbBits (bs : List Byte) : groupBytes (bs.flatMap msbBits) = bs := by
  induction bs with
  | nil => rfl
  | cons b bs ih => rw [List.flatMap_cons, groupBytes_msbBits_append, ih]

/-! ### A frame read back (41_frames R152, R161) -/

theorem drivenBits_byteEvents {c : DeviceConfig} (hwf : c.wellFormed = true) (hsw : c.transport = .sw)
    (x : Byte × Byte) : drivenBits c (byteEvents c x) = msbBits x.1 := by
  obtain ⟨-, hsck⟩ := DeviceConfig.wellFormed_mosiPin_ne hwf hsw
  rw [byteEvents, hsw]
  simp [bitEvents, drivenBits, hsck, msbBits]

theorem sampledBits_byteEvents {c : DeviceConfig} (hsw : c.transport = .sw) (x : Byte × Byte) :
    sampledBits c (byteEvents c x) = msbBits x.2 := by
  rw [byteEvents, hsw]
  simp [bitEvents, sampledBits, msbBits]

theorem drivenBits_frameEvents {c : DeviceConfig} (hwf : c.wellFormed = true) (hsw : c.transport = .sw)
    (xs : List (Byte × Byte)) : drivenBits c (frameEvents c xs) = (xs.map Prod.fst).flatMap msbBits := by
  obtain ⟨hcs, -⟩ := DeviceConfig.wellFormed_mosiPin_ne hwf hsw
  have hopen : drivenBits c (openEvents c) = [] := by simp [openEvents, hsw, drivenBits, hcs]
  have hclose : drivenBits c (closeEvents c) = [] := by simp [closeEvents, hsw, drivenBits, hcs]
  rw [frameEvents, drivenBits_append, drivenBits_append, hopen, hclose, reader_flatMap rfl (drivenBits_append c)]
  simp [drivenBits_byteEvents hwf hsw, List.flatMap_map]

theorem sampledBits_frameEvents {c : DeviceConfig} (hsw : c.transport = .sw) (xs : List (Byte × Byte)) :
    sampledBits c (frameEvents c xs) = (xs.map Prod.snd).flatMap msbBits := by
  have hopen : sampledBits c (openEvents c) = [] := by simp [openEvents, hsw, sampledBits]
  have hclose : sampledBits c (closeEvents c) = [] := by simp [closeEvents, hsw, sampledBits]
  rw [frameEvents, sampledBits_append, sampledBits_append, hopen, hclose, reader_flatMap rfl (sampledBits_append c)]
  simp [sampledBits_byteEvents hsw, List.flatMap_map]

theorem hwExchanges_frameEvents {c : DeviceConfig} (hhw : c.transport = .hw) (xs : List (Byte × Byte)) :
    hwExchanges (frameEvents c xs) = xs := by
  rw [frameEvents, hwExchanges_append, hwExchanges_append, reader_flatMap rfl hwExchanges_append]
  simp [openEvents, closeEvents, byteEvents, hhw, hwExchanges]

theorem sentBytes_frameEvents {c : DeviceConfig} (hwf : c.wellFormed = true) (xs : List (Byte × Byte)) :
    sentBytes c (frameEvents c xs) = xs.map Prod.fst := by
  unfold sentBytes
  cases htr : c.transport
  case hw => simp only [hwExchanges_frameEvents htr]
  case sw => simp only [drivenBits_frameEvents hwf htr, groupBytes_flatMap_msbBits]

theorem receivedBytes_frameEvents (c : DeviceConfig) (xs : List (Byte × Byte)) :
    receivedBytes c (frameEvents c xs) = xs.map Prod.snd := by
  unfold receivedBytes
  cases htr : c.transport
  case hw => simp only [hwExchanges_frameEvents htr]
  case sw => simp only [sampledBits_frameEvents htr, groupBytes_flatMap_msbBits]

theorem State.exchanges_map_fst (s : State) (j : Nat) (ts : List Byte) : (s.exchanges j ts).map Prod.fst = ts := by
  induction ts generalizing j with
  | nil => rfl
  | cons t ts ih => rw [State.exchanges, List.map_cons, ih]

theorem State.exchanges_map_snd (s : State) (j : Nat) (ts : List Byte) :
    (s.exchanges j ts).map Prod.snd = s.answerBytes j ts.length := by
  induction ts generalizing j with
  | nil => rfl
  | cons t ts ih => rw [State.exchanges, List.map_cons, ih]; rfl

/-- Settles O29: the one frame of RREAD, read back: the bytes it sends, and an answer to each. -/
theorem readRoundTrip : Obligations.ReadRoundTrip := by
  intro s addr n hwf hready
  refine ⟨_, _, s.answerByte 0, s.answerBytes 1 n, exec_rread_ready addr n hready, rfl, ?sent, ?received,
    s.answerBytes_length 1 n, rfl⟩
  case sent => exact (sentBytes_frameEvents hwf _).trans (s.exchanges_map_fst 0 _)
  case received => rw [receivedBytes_frameEvents, State.exchanges_map_snd, readBytes_length]; rfl

/-- Settles O30: the one frame of RWRITE, read back. -/
theorem writeRoundTrip : Obligations.WriteRoundTrip :=
  fun s addr d hwf hready => ⟨_, _, exec_rwrite_ready addr d hready, rfl,
    (sentBytes_frameEvents hwf _).trans (s.exchanges_map_fst 0 (writeBytes addr d))⟩

/-! ### Chip-select and the bracket (41_frames R165, 40_transport R127) -/

theorem csLevels_frameEvents {c : DeviceConfig} (hwf : c.wellFormed = true) (xs : List (Byte × Byte)) :
    csLevels c (frameEvents c xs) = [false, true] := by
  rw [frameEvents, csLevels_append, csLevels_append, csLevels_flatMap_eq_nil (csLevels_byteEvents hwf)]
  cases h : c.transport <;> simp [openEvents, closeEvents, h, csLevels]

theorem csLevels_setupEvents (c : DeviceConfig) : csLevels c (setupEvents c) = [true] := by
  cases h : c.transport <;> simp [setupEvents, h, csLevels]

theorem frameEvents_head?_getLast?_hw {c : DeviceConfig} (h : c.transport = .hw) (xs : List (Byte × Byte)) :
    (frameEvents c xs).head? = some (.hwBegin 500000 .msbFirst .mode0) ∧
      (frameEvents c xs).getLast? = some .hwEnd := by
  exact ⟨by simp [frameEvents, openEvents, h], by simp [frameEvents, closeEvents, h, List.getLast?_append]⟩

/-- Settles O31: RREAD and RWRITE are one frame, PINCFG one pin set-up, and a lone byte moves other pins. -/
theorem chipSelectWindow : Obligations.ChipSelectWindow := by
  intro s hwf hready
  refine ⟨fun i hi => ?frame, ⟨_, _, exec_pincfg_eq s, rfl, csLevels_setupEvents s.cfg⟩, fun i hi => ?byte⟩
  case frame =>
    obtain ⟨a, n, rfl⟩ | ⟨a, d, rfl⟩ := hi
    · exact ⟨_, _, exec_rread_ready a n hready, rfl, csLevels_frameEvents hwf _,
        fun hhw => frameEvents_head?_getLast?_hw hhw _⟩
    · exact ⟨_, _, exec_rwrite_ready a d hready, rfl, csLevels_frameEvents hwf _,
        fun hhw => frameEvents_head?_getLast?_hw hhw _⟩
  case byte =>
    have hbytes := csLevels_flatMap_eq_nil (csLevels_byteEvents hwf)
    obtain ⟨tx, rfl⟩ | ⟨a, rfl⟩ | ⟨a, rfl⟩ := hi
    · exact ⟨_, _, exec_xfer8_ready tx hready, rfl, hbytes _⟩
    · exact ⟨_, _, exec_frameRdHdr_eq s a, rfl, hbytes _⟩
    · exact ⟨_, _, exec_frameWrHdr_eq s a, rfl, hbytes _⟩

/-- Every bracket opened among the events has R127's arguments. -/
def DefaultBrackets (es : List Event) : Prop :=
  ∀ f o m, Event.hwBegin f o m ∈ es → f = 500000 ∧ o = .msbFirst ∧ m = .mode0

theorem DefaultBrackets.append {es fs : List Event} (hes : DefaultBrackets es) (hfs : DefaultBrackets fs) :
    DefaultBrackets (es ++ fs) :=
  fun f o m h => (List.mem_append.1 h).elim (hes f o m) (hfs f o m)

theorem defaultBrackets_bytes (c : DeviceConfig) (xs : List (Byte × Byte)) :
    DefaultBrackets (xs.flatMap (byteEvents c)) := by
  intro f o m h
  obtain ⟨x, -, hx⟩ := List.mem_flatMap.1 h
  cases htr : c.transport <;> simp [byteEvents, htr, bitEvents] at hx

theorem defaultBrackets_frameEvents (c : DeviceConfig) (xs : List (Byte × Byte)) :
    DefaultBrackets (frameEvents c xs) := by
  have hopen : DefaultBrackets (openEvents c) := by
    cases htr : c.transport <;> simp [DefaultBrackets, openEvents, htr]
  have hclose : DefaultBrackets (closeEvents c) := by
    cases htr : c.transport <;> simp [DefaultBrackets, closeEvents, htr]
  exact (hopen.append (defaultBrackets_bytes c xs)).append hclose

theorem defaultBrackets_setupEvents (c : DeviceConfig) : DefaultBrackets (setupEvents c) := by
  cases htr : c.transport <;> simp [DefaultBrackets, setupEvents, htr]

theorem BusLog.defaultBrackets {c : DeviceConfig} {es fs : List Event} (h : BusLog c es fs) :
    ∃ ds, fs = es ++ ds ∧ DefaultBrackets ds := by
  have join {ds ds' : List Event} (hds : DefaultBrackets ds) (hds' : DefaultBrackets ds') :
      ∃ all, es ++ ds ++ ds' = es ++ all ∧ DefaultBrackets all := ⟨_, List.append_assoc .., hds.append hds'⟩
  induction h with
  | same => exact ⟨[], (List.append_nil es).symm, fun _ _ _ h => absurd h List.not_mem_nil⟩
  | bytes _ xs ih =>
    obtain ⟨ds, rfl, hds⟩ := ih
    exact join hds (defaultBrackets_bytes c xs)
  | frame _ xs ih =>
    obtain ⟨ds, rfl, hds⟩ := ih
    exact join hds (defaultBrackets_frameEvents c xs)
  | setup _ ih =>
    obtain ⟨ds, rfl, hds⟩ := ih
    exact join hds (defaultBrackets_setupEvents c)

/-- Settles O32: a step adds lone bytes, frames and pin set-ups, and of these only a frame opens a bracket. -/
theorem bracketSettings : Obligations.BracketSettings :=
  fun _ _ h => (step_busLog h).defaultBrackets

/-! ### Event counts (70_reset_and_hazards R299) -/

/-- A number by transport. -/
def perTransport (tr : Transport) (sw hw : Nat) : Nat :=
  match tr with
  | .sw => sw
  | .hw => hw

theorem perTransport_add (tr : Transport) (a b a' b' : Nat) :
    perTransport tr a b + perTransport tr a' b' = perTransport tr (a + a') (b + b') := by
  cases tr <;> rfl

theorem State.framed_ev_length (ts : List Byte) (s : State) : (s.framed ts).ev.length =
    s.ev.length + perTransport s.transport (2 + 32 * ts.length) (4 + ts.length) := by
  cases h : s.transport
  case sw => exact State.framed_ev_length_sw h ts
  case hw => exact State.framed_ev_length_hw h ts

theorem State.sent_singleton_ev_length (b : Byte) (s : State) :
    (s.sent [b]).ev.length = s.ev.length + perTransport s.transport 32 1 := by
  cases h : s.transport
  case sw => rw [State.sent_singleton_sw h]; simp [bitEvents, perTransport]
  case hw => rw [State.sent_singleton_hw h]; simp [perTransport]

theorem State.configured_ev_length (s : State) :
    s.configured.ev.length = s.ev.length + perTransport s.transport 5 3 := by
  cases h : s.transport
  case sw => rw [State.configured_sw h]; simp [perTransport]
  case hw => rw [State.configured_hw h]; simp [perTransport]

theorem State.trimFrames_ev_length (s : State) :
    s.trimFrames.ev.length = s.ev.length + perTransport s.transport 1160 52 := by
  simp only [State.trimFrames, State.framed_ev_length, State.framed_transport, readBytes_length, Nat.add_assoc,
    perTransport_add]

theorem State.initFrames_ev_length (s : State) :
    s.initFrames.ev.length = s.ev.length + perTransport s.transport 198 18 := by
  simp only [State.initFrames, State.framed_ev_length, State.framed_transport, writeBytes_length, Nat.add_assoc,
    perTransport_add]

theorem State.dataFrames_ev_length (s : State) :
    s.dataFrames.ev.length = s.ev.length + perTransport s.transport 358 23 := by
  simp only [State.dataFrames, State.framed_ev_length, State.framed_transport, readBytes_length, Nat.add_assoc,
    perTransport_add]

theorem State.checked_ev_length (s : State) :
    s.checked.ev.length = s.ev.length + perTransport s.transport 71 9 := by
  have htr : s.configured.transport = s.transport := rfl
  change (s.configured.framed (readBytes Config.idAddr 1)).ev.length = _
  rw [State.framed_ev_length, State.configured_ev_length, htr, Nat.add_assoc, perTransport_add, readBytes_length]

theorem State.loaded_ev_length (s : State) :
    s.loaded.ev.length = s.ev.length + perTransport s.transport 1429 79 := by
  have htr : s.checked.transport = s.transport := rfl
  have htr' : s.checked.initFrames.transport = s.checked.transport := rfl
  rw [State.loaded, State.withTrim_ev, State.trimFrames_ev_length, State.initFrames_ev_length,
    State.checked_ev_length, htr', htr, Nat.add_assoc, Nat.add_assoc, perTransport_add, perTransport_add]

/-- Settles O33: the events of the closed forms, counted by transport. -/
theorem eventCounts : Obligations.EventCounts := by
  refine ⟨fun s => ⟨_, exec_pincfg_eq s, s.configured_ev_length⟩, fun s => ?begin, fun s hready =>
    ⟨fun tx => ⟨_, exec_xfer8_ready tx hready, s.sent_singleton_ev_length tx⟩,
      fun a n => ⟨_, exec_rread_ready a n hready, ?rread⟩,
      fun a d => ⟨_, exec_rwrite_ready a d hready, s.framed_ev_length (writeBytes a d)⟩,
      ⟨_, exec_idchk_ready hready, s.framed_ev_length (readBytes Config.idAddr 1)⟩,
      ⟨_, exec_rdtrim_ready hready, s.trimFrames_ev_length⟩,
      fun hphase => ⟨_, exec_rddata_ready hphase hready, s.dataFrames_ev_length⟩⟩⟩
  case begin =>
    cases hid : idMatches (s.answerByte 1)
    case false =>
      rw [if_neg (not_or.2 ((idMatches_eq_false_iff _).1 hid))]
      exact ⟨_, exec_begin_mismatch hid, s.checked_ev_length⟩
    case true =>
      rw [if_pos ((idMatches_iff _).1 hid)]
      exact ⟨_, exec_begin_match hid, s.loaded_ev_length⟩
  case rread =>
    rw [State.complete_ev, State.framed_ev_length, readBytes_length]
    cases s.transport
    case sw => rfl
    case hw => simp only [perTransport]; omega

/-! ### Where the trim regions lie (20_memory R64) -/

section
variable (s : State) (j : Nat)

theorem State.trimBytes_getElem?_temp {k : Nat} (hk : k < 6) : (s.trimBytes j)[k]? = some (s.answerByte (j + 1 + k)) := by
  simp only [State.trimBytes, List.getElem?_append, List.length_append, State.answerBytes_length, State.answerBytes_getElem?]
  simp [hk, show k < 25 by omega, show k < 24 by omega]

theorem State.trimBytes_getElem?_press {k : Nat} (hk : k < 18) :
    (s.trimBytes j)[6 + k]? = some (s.answerByte (j + 8 + k)) := by
  simp only [State.trimBytes, List.getElem?_append, List.length_append, State.answerBytes_length, State.answerBytes_getElem?]
  simp [hk, show 6 + k < 25 by omega, show 6 + k < 24 by omega]

theorem State.trimBytes_getElem?_hum1 : (s.trimBytes j)[24]? = some (s.answerByte (j + 27)) := by
  simp only [State.trimBytes, List.getElem?_append, List.length_append, State.answerBytes_length, State.answerBytes_getElem?]
  simp

theorem State.trimBytes_getElem?_hum2 {k : Nat} (hk : k < 7) :
    (s.trimBytes j)[25 + k]? = some (s.answerByte (j + 29 + k)) := by
  simp only [State.trimBytes, List.getElem?_append, List.length_append, State.answerBytes_length, State.answerBytes_getElem?]
  simp [hk]

end

/-- Settles O35: the bytes of `TRIM` from offset 0 on are the regions' answers, one region after the other. -/
theorem trimLayout : Obligations.TrimLayout := by
  intro s hready
  have hread {off : Nat} {b : Byte} (hb : (s.trimBytes 0)[off]? = some b) :
      Memory.read (Memory.writeList s.trim 0 (s.trimBytes 0)) off = some b := by
    rw [Memory.read_writeList_zero, hb, Option.some_or]
  refine ⟨_, exec_rdtrim_ready hready, ?_⟩
  rw [State.complete_trim, State.withTrim_trim]
  exact ⟨fun k hk => hread (by simpa using s.trimBytes_getElem?_temp 0 hk),
    fun k hk => hread (by simpa using s.trimBytes_getElem?_press 0 hk),
    hread (by simpa using s.trimBytes_getElem?_hum1 0),
    fun k hk => hread (by simpa using s.trimBytes_getElem?_hum2 0 hk)⟩

/-! ### Bit 7 of an address (20_memory R61) -/

theorem readHeader_xor_bit7 : ∀ addr : Byte, (addr ^^^ 0x80#8) ||| 0x80#8 = addr ||| 0x80#8 := by
  decide

theorem writeHeader_xor_bit7 : ∀ addr : Byte, (addr ^^^ 0x80#8) &&& 0x7F#8 = addr &&& 0x7F#8 := by
  decide

/-- Settles O12: the bytes of both frames are the same, for a read's header sets bit 7 and a write's clears it. -/
theorem addressBit7IsIgnored : Obligations.AddressBit7IsIgnored := by
  intro s addr d n hready
  have hread : readBytes (addr ^^^ 0x80#8) n = readBytes addr n := by
    rw [readBytes, readHeader_xor_bit7, readBytes]
  have hwrite : writeBytes (addr ^^^ 0x80#8) d = writeBytes addr d := by
    rw [writeBytes, writeHeader_xor_bit7, writeBytes]
  rw [exec_rread_ready _ n hready, exec_rread_ready addr n hready, exec_rwrite_ready _ d hready,
    exec_rwrite_ready addr d hready, hread, hwrite]
  exact ⟨rfl, rfl⟩

/-! ### The working registers play no part in an operation (10_state R36) -/

section
variable (w : WorkRegs) (s : State)

theorem State.withWork_withTrim (m : Memory Byte) : (s.withWork w).withTrim m = (s.withTrim m).withWork w := rfl

theorem State.withWork_withStage (m : Memory Byte) : (s.withWork w).withStage m = (s.withStage m).withWork w := rfl

theorem State.withWork_trimBytes (j : Nat) : (s.withWork w).trimBytes j = s.trimBytes j :=
  State.trimBytes_congr fun i => State.withWork_answerByte w s (j + i)

theorem State.withWork_answerBytes (j n : Nat) : (s.withWork w).answerBytes j n = s.answerBytes j n :=
  State.answerBytes_congr (fun i => State.withWork_answerByte w s (j + i)) n

theorem State.withWork_configured : (s.withWork w).configured = s.configured.withWork w := rfl

theorem State.withWork_identified : (s.withWork w).identified = s.identified.withWork w := by
  simp only [State.identified, State.withWork_framed, State.withWork_answerByte]
  rfl

theorem State.withWork_checked : (s.withWork w).checked = s.checked.withWork w := by
  rw [State.checked, State.withWork_configured, State.withWork_identified, State.checked]

theorem State.withWork_loaded : (s.withWork w).loaded = s.loaded.withWork w := by
  rw [State.loaded, State.withWork_checked, State.withWork_initFrames, State.withWork_trimFrames,
    State.withWork_trimBytes, State.withWork_trim, State.withWork_withTrim, State.loaded]

theorem State.withWork_dataFrames : (s.withWork w).dataFrames = s.dataFrames.withWork w := by
  simp only [State.dataFrames, State.withWork_framed]

theorem State.withWork_sampleBytes : (s.withWork w).sampleBytes = s.sampleBytes := by
  simp only [State.sampleBytes, State.withWork_answerBytes]

theorem State.withWork_widened : (s.withWork w).widened = s.widened := by
  simp only [State.widened, State.widenAll, State.withWork_dataFrames, State.withWork_sampleBytes, State.withWork_stage,
    State.withWork_withStage, State.withWork_widenFold, State.withWork_raw]

theorem State.withWork_sampled8 : (s.withWork w).sampled8 = s.sampled8.withWork w := by
  simp only [State.sampled8, State.withWork_dataFrames, State.withWork_sampleBytes, State.withWork_stage,
    State.withWork_widened]
  simp only [State.withWork]

end

/-- An operation that faults does so before it looks at the working registers. -/
theorem Raised.exec_withWork {i : Instr} {s t : State} (hr : Raised i s t) (h : exec i s = .next t) (w : WorkRegs) :
    exec i (s.withWork w) = .next (t.withWork w) := by
  have guarded (hi : (∃ tx, i = .xfer8 tx) ∨ (∃ a n, i = .rread a n) ∨ (∃ a d, i = .rwrite a d) ∨ i = .idchk ∨ i = .rdtrim) :
      exec i (s.withWork w) = .next (t.withWork w) := by
    have hunready : s.pinsReady = false := hr.unready.resolve_right fun ⟨hrddata, _⟩ => by simp [hrddata] at hi
    obtain rfl := Host.Outcome.next.inj ((exec_unready hunready hi).symm.trans h)
    exact exec_unready (s := s.withWork w) hunready hi
  cases i with
  | xfer8 tx => exact guarded (.inl ⟨tx, rfl⟩)
  | rread a n => exact guarded (.inr (.inl ⟨a, n, rfl⟩))
  | rwrite a d => exact guarded (.inr (.inr (.inl ⟨a, d, rfl⟩)))
  | idchk => exact guarded (.inr (.inr (.inr (.inl rfl))))
  | rdtrim => exact guarded (.inr (.inr (.inr (.inr rfl))))
  | rddata =>
    by_cases hphase : s.phase = .ready
    · have hunready : s.pinsReady = false := hr.unready.resolve_right fun ⟨_, hne⟩ => hne hphase
      obtain rfl := Host.Outcome.next.inj ((exec_rddata_unready hphase hunready).symm.trans h)
      exact exec_rddata_unready (s := s.withWork w) hphase hunready
    · obtain rfl := Host.Outcome.next.inj ((exec_rddata_notReady hphase).symm.trans h)
      exact exec_rddata_notReady (s := s.withWork w) hphase
  | pincfg => exact absurd rfl hr.notPincfg
  | begin => exact absurd rfl hr.notBegin
  | frameRdHdr a => exact absurd rfl (hr.notHeader a).1
  | frameWrHdr a => exact absurd rfl (hr.notHeader a).2

theorem exec_withWork {i : Instr} {s t : State} (h : exec i s = .next t) (w : WorkRegs) :
    exec i (s.withWork w) = .next t ∨ (t.fault ≠ none ∧ exec i (s.withWork w) = .next (t.withWork w)) := by
  cases exec_next h with
  | raised hr =>
    refine .inr ⟨?_, hr.exec_withWork h w⟩
    obtain ⟨r, c, rfl⟩ := hr.state
    exact Option.some_ne_none _
  | xfer8 tx hready hi ht =>
    subst hi ht
    left
    rw [exec_xfer8_ready (s := s.withWork w) tx hready, State.withWork_sent, State.withWork_complete,
      State.withWork_answerByte]
  | rread a n hready hi ht =>
    subst hi ht
    left
    rw [exec_rread_ready (s := s.withWork w) a n hready, State.withWork_framed, State.withWork_complete,
      State.withWork_answerBytes]
  | rwrite a d hready hi ht =>
    subst hi ht
    left
    rw [exec_rwrite_ready (s := s.withWork w) a d hready, State.withWork_framed, State.withWork_complete]
  | pincfg hi ht =>
    subst hi ht
    exact .inl (exec_pincfg_eq _)
  | idchk hready hi ht =>
    subst hi ht
    left
    rw [exec_idchk_ready (s := s.withWork w) hready, State.withWork_identified, State.withWork_complete,
      State.withWork_answerByte]
  | rdtrim hready hi ht =>
    subst hi ht
    left
    rw [exec_rdtrim_ready (s := s.withWork w) hready, State.withWork_trimFrames, State.withWork_withTrim,
      State.withWork_complete, State.withWork_trimBytes, State.withWork_trim]
  | beginOk hid hi ht =>
    subst hi ht
    left
    rw [exec_begin_match (s := s.withWork w) (by rwa [State.withWork_answerByte]), State.withWork_loaded,
      State.withWork_finishBegin]
  | beginNo hid hi ht =>
    subst hi ht
    left
    rw [exec_begin_mismatch (s := s.withWork w) (by rwa [State.withWork_answerByte]), State.withWork_checked,
      State.withWork_finishBegin]
  | rddata hphase hready hi ht =>
    subst hi ht
    left
    rw [exec_rddata_ready (s := s.withWork w) hphase hready, State.withWork_sampled8, State.withWork_complete]
  | header a _ hi _ =>
    left
    obtain rfl | rfl := hi
    · rw [← h, exec_frameRdHdr_eq, exec_frameRdHdr_eq, State.withWork_sent, State.withWork_settle]
    · rw [← h, exec_frameWrHdr_eq, exec_frameWrHdr_eq, State.withWork_sent, State.withWork_settle]

/-- Settles O54: the closed forms read no working register and end with all of them empty; a fault leaves them alone. -/
theorem workingRegistersCarryNothing : Obligations.WorkingRegistersCarryNothing :=
  fun _ _ _ w h => exec_withWork h w

/-! ### Dropped answers (41_frames R150, R160) -/

/-- Two states that differ in nothing but the next `k` answers of the slave. -/
structure DifferInAnswers (k : Nat) (s t : State) : Prop where
  rest  : t = { s with slaveBits := t.slaveBits, slaveBytes := t.slaveBytes }
  bits  : t.slaveBits.drop (s.bitsFor k) = s.slaveBits.drop (s.bitsFor k)
  bytes : t.slaveBytes.drop (s.bytesFor k) = s.slaveBytes.drop (s.bytesFor k)

theorem getElem?_add_eq_of_drop_eq {α : Type} {l m : List α} {k : Nat} (h : l.drop k = m.drop k) (i : Nat) :
    l[k + i]? = m[k + i]? := by
  rw [← List.getElem?_drop, h, List.getElem?_drop]

namespace DifferInAnswers

variable {k : Nat} {s t : State}

theorem transport_eq (h : DifferInAnswers k s t) : t.transport = s.transport := by
  rw [h.rest]; rfl

theorem pinsReady_eq (h : DifferInAnswers k s t) : t.pinsReady = s.pinsReady := by
  rw [h.rest]; rfl

theorem of_le (h : DifferInAnswers k s t) {n : Nat} (hn : k ≤ n) : DifferInAnswers n s t := by
  obtain ⟨m, rfl⟩ := Nat.exists_eq_add_of_le hn
  refine ⟨h.rest, ?_, ?_⟩
  · rw [State.bitsFor_add, ← List.drop_drop, h.bits, List.drop_drop]
  · rw [State.bytesFor_add, ← List.drop_drop, h.bytes, List.drop_drop]

theorem answers_eq (h : DifferInAnswers k s t) : t.answers = s.answers := by
  rw [h.rest]

/-- After the answers in which they differ they agree. -/
theorem answerByte_eq (h : DifferInAnswers k s t) (j : Nat) : t.answerByte (k + j) = s.answerByte (k + j) := by
  cases htr : s.transport
  case hw =>
    have hbytes := h.bytes
    rw [State.bytesFor, htr] at hbytes
    rw [State.answerByte_hw htr, State.answerByte_hw (h.transport_eq.trans htr), State.answerHwByte, State.answerHwByte,
      h.answers_eq, getElem?_add_eq_of_drop_eq hbytes]
  case sw =>
    have hbits := h.bits
    rw [State.bitsFor, htr] at hbits
    rw [State.answerByte_sw htr, State.answerByte_sw (h.transport_eq.trans htr)]
    congr 1
    funext i
    rw [State.answerBit, State.answerBit, h.answers_eq, Nat.mul_add, Nat.add_assoc, getElem?_add_eq_of_drop_eq hbits]

/-- A frame that takes those answers leaves states that differ in `EV` alone. -/
theorem framed_eq (h : DifferInAnswers k s t) {ts : List Byte} (hts : k ≤ ts.length) :
    t.framed ts = { s.framed ts with ev := (t.framed ts).ev } := by
  obtain ⟨hrest, hbits, hbytes⟩ := h.of_le hts
  have hframed : t.framed ts = { s.framed ts with
      ev := (t.framed ts).ev
      slaveBits := t.slaveBits.drop (s.bitsFor ts.length)
      slaveBytes := t.slaveBytes.drop (s.bytesFor ts.length) } := by
    generalize t.slaveBits = xs, t.slaveBytes = ys at hrest
    subst hrest
    rfl
  rw [hbits, hbytes] at hframed
  exact hframed

theorem answerBytes_eq (h : DifferInAnswers k s t) (n : Nat) : t.answerBytes k n = s.answerBytes k n :=
  State.answerBytes_congr h.answerByte_eq n

/-- RREAD drops the answer to its header. -/
theorem exec_rread (h : DifferInAnswers 1 s t) (hready : s.pinsReady = true) (addr : Byte) (n : Nat) :
    ∃ u v, exec (.rread addr n) s = .next u ∧ exec (.rread addr n) t = .next v ∧ v = { u with ev := v.ev } := by
  refine ⟨_, _, exec_rread_ready addr n hready, exec_rread_ready addr n (h.pinsReady_eq.trans hready), ?_⟩
  rw [h.answerBytes_eq, h.framed_eq (by simp)]
  simp only [State.complete]

/-- RWRITE drops both answers. -/
theorem exec_rwrite (h : DifferInAnswers 2 s t) (hready : s.pinsReady = true) (addr d : Byte) :
    ∃ u v, exec (.rwrite addr d) s = .next u ∧ exec (.rwrite addr d) t = .next v ∧ v = { u with ev := v.ev } := by
  refine ⟨_, _, exec_rwrite_ready addr d hready, exec_rwrite_ready addr d (h.pinsReady_eq.trans hready), ?_⟩
  rw [h.framed_eq (writeBytes_length addr d).ge]
  simp only [State.complete]

theorem of_slaveBytes {s : State} (hhw : s.transport = .hw) {xs ys : List Byte} (hlen : xs.length = ys.length)
    (l : List Byte) :
    DifferInAnswers xs.length { s with slaveBytes := xs ++ l } { s with slaveBytes := ys ++ l } where
  rest := rfl
  bits := rfl
  bytes := by
    have hk : State.bytesFor { s with slaveBytes := xs ++ l } xs.length = xs.length := by
      simp only [State.bytesFor, State.transport, show s.cfg.transport = .hw from hhw]
    rw [hk, List.drop_left, hlen, List.drop_left]

theorem of_slaveBits {s : State} (hsw : s.transport = .sw) {xs ys : List Bool} (hxs : xs.length = 8 * k)
    (hys : ys.length = 8 * k) (l : List Bool) :
    DifferInAnswers k { s with slaveBits := xs ++ l } { s with slaveBits := ys ++ l } where
  rest := rfl
  bits := by
    have hk : State.bitsFor { s with slaveBits := xs ++ l } k = 8 * k := by
      simp only [State.bitsFor, State.transport, show s.cfg.transport = .sw from hsw]
    rw [hk, List.drop_left' hys, List.drop_left' hxs]
  bytes := rfl

end DifferInAnswers

/-- Settles O55: two scripts that differ in the answers a frame drops agree on the bytes it hands out and on what is left of
them. -/
theorem droppedAnswersChangeNothing : Obligations.DroppedAnswersChangeNothing := by
  refine fun s addr d n hready => ⟨fun hhw x y x' y' l => ⟨?readHw, ?writeHw⟩,
    fun hsw xs ys l => ⟨fun hxs hys => ?readSw, fun hxs hys => ?writeSw⟩⟩
  case readHw => exact (DifferInAnswers.of_slaveBytes (xs := [x]) (ys := [y]) hhw rfl l).exec_rread hready addr n
  case writeHw =>
    exact (DifferInAnswers.of_slaveBytes (xs := [x, x']) (ys := [y, y']) hhw rfl l).exec_rwrite hready addr d
  case readSw => exact (DifferInAnswers.of_slaveBits (k := 1) hsw hxs hys l).exec_rread hready addr n
  case writeSw => exact (DifferInAnswers.of_slaveBits (k := 2) hsw hxs hys l).exec_rwrite hready addr d

end Sys2Proof.Machine
